-- ==== Sys2Proof/Word.lean ====
section
/-! DEFINITION. The words of the block: bytes, 32-bit words and binary32 data (00_scope.md R9, R13). -/

namespace Sys2Proof

/-- u8. -/
abbrev Byte := BitVec 8

/-- u32, or i32 where a rule reads it in two's complement. -/
abbrev Word := BitVec 32

/-- One more than the magnitude of infinity, so that `Fin F32.magBound` holds every magnitude that is not a NaN's. -/
abbrev F32.magBound : Nat := 0x7F800001

/-- An `f32` value (00 R13). Every NaN is the one value `nan`: "Every rule treats all NaNs alike" and the payload of
a NaN an operation creates is any value (92 D19); the word a reader sees for it is a free value (log 10).
`num neg mag` is the datum with sign bit `neg` and `mag` in its other 31 bits; `mag = 0x7F800000` is infinity. -/
inductive F32 where
  | nan
  | num (neg : Bool) (mag : Fin F32.magBound)
deriving DecidableEq, Repr, Inhabited

end Sys2Proof
end

