-- ==== Sys2Proof/Machine/Types.lean ====
section
/-! DEFINITION. The names the rules index state by (00_scope.md R14), the records they fill, the sequencers, and the
turns: what one step of one agent of 60_exceptions.md R120 is asked to do. -/

namespace Sys2Proof.Machine

/-- Sensors, in the order of 00 R14. SCHED is one of them: the value 3 of its two bits is never written (10 R28). -/
inductive Sensor where
  | acc | gyr | mag
deriving DecidableEq, Repr, Inhabited

/-- Axes, in the order of 00 R14. -/
inductive Axis where
  | roll | pitch | yaw
deriving DecidableEq, Repr, Inhabited

/-- Vector components, in the order of 00 R14. -/
inductive Comp where
  | x | y | z
deriving DecidableEq, Repr, Inhabited

/-- A value for each sensor. -/
structure PerSensor (α : Type) where
  acc : α
  gyr : α
  mag : α
deriving DecidableEq, Repr, Inhabited

/-- A value for each axis. -/
structure PerAxis (α : Type) where
  roll : α
  pitch : α
  yaw : α
deriving DecidableEq, Repr, Inhabited

/-- A value for each motor i = 0..3. -/
structure Motors (α : Type) where
  m0 : α
  m1 : α
  m2 : α
  m3 : α
deriving DecidableEq, Repr, Inhabited

/-- Three components x, y, z. -/
structure Vec3 (α : Type) where
  x : α
  y : α
  z : α
deriving DecidableEq, Repr, Inhabited

/-- One Kalman instance: x[i] is `xi`, P[r][c] is `prc` (10 R31). -/
structure Kf where
  x0 : F32
  x1 : F32
  x2 : F32
  p00 : F32
  p01 : F32
  p02 : F32
  p10 : F32
  p11 : F32
  p12 : F32
  p20 : F32
  p21 : F32
  p22 : F32
deriving DecidableEq, Repr

/-- AXIS_ORDER_s as the list of components of word 0, word 1, word 2 (30 R64): `yzx` puts word 0 into y. -/
inductive AxisOrder where
  | xyz | xzy | yxz | yzx | zxy | zyx
deriving DecidableEq, Repr, Inhabited

/-- The four operations of the ENGINE (40 R71). -/
inductive EngOp where
  | readByte | writeByte | readBurst | writeBurst
deriving DecidableEq, Repr

/-- The three steps of a phase (40 R76). -/
inductive Stage where
  | preWait | issue | postWait
deriving DecidableEq, Repr

/-- ACTIVE{op, dev, reg, n, k, stage} (10 R19). -/
structure Txn where
  op : EngOp
  dev : BitVec 7
  reg : Byte
  n : Nat
  k : Nat
  stage : Stage
deriving DecidableEq, Repr

/-- ENG_SEQ (10 R19). -/
inductive EngSeq where
  | idle
  | active (t : Txn)
deriving DecidableEq, Repr

/-- SMP_SEQ (10 R27). -/
inductive SmpSeq where
  | boot (s : Sensor)
  | bootWait (s : Sensor)
  | idle
  | sampling (s : Sensor)
deriving DecidableEq, Repr

/-- The seven bus commands the ENGINE issues (30 R61). -/
inductive BusCmd where
  | sendStart | sendCont | sendFinish
  | singleReceive | receiveStart | receiveCont | receiveFinish
deriving DecidableEq, Repr

/-- rs: true for a receive (30 R61, R62). -/
def BusCmd.rs : BusCmd → Bool
  | .sendStart => false
  | .sendCont => false
  | .sendFinish => false
  | .singleReceive => true
  | .receiveStart => true
  | .receiveCont => true
  | .receiveFinish => true

/-- CMD_ENC: the code {ACK, STOP, START, RUN} of each bus command (00 R7, 30 R61). -/
structure CmdEnc where
  sendStart : BitVec 4
  sendCont : BitVec 4
  sendFinish : BitVec 4
  singleReceive : BitVec 4
  receiveStart : BitVec 4
  receiveCont : BitVec 4
  receiveFinish : BitVec 4
deriving DecidableEq, Repr

/-- The default of CMD_ENC: the table of 30 R61, whose keys spec/opcode_table.json has (log 8). -/
def CmdEnc.standard : CmdEnc where
  sendStart := 0x3#4
  sendCont := 0x1#4
  sendFinish := 0x5#4
  singleReceive := 0x7#4
  receiveStart := 0xB#4
  receiveCont := 0x9#4
  receiveFinish := 0x5#4

/-- The CMD code on BC_CMD (30 R61). -/
def CmdEnc.code (e : CmdEnc) : BusCmd → BitVec 4
  | .sendStart => e.sendStart
  | .sendCont => e.sendCont
  | .sendFinish => e.sendFinish
  | .singleReceive => e.singleReceive
  | .receiveStart => e.receiveStart
  | .receiveCont => e.receiveCont
  | .receiveFinish => e.receiveFinish

/-- The key {rs, CMD[3:0]} of a bus command (30 R61, R66). -/
def CmdEnc.key (e : CmdEnc) (c : BusCmd) : BitVec 5 := BitVec.ofBool c.rs ++ e.code c

/-- A table a decoder can read: among the sends, and among the receives, no two codes are the same; a send and a receive
may share one, since rs tells them apart (30 R61, log 8). -/
def CmdEnc.legal (e : CmdEnc) : Bool :=
  decide [e.sendStart, e.sendCont, e.sendFinish].Nodup
    && decide [e.singleReceive, e.receiveStart, e.receiveCont, e.receiveFinish].Nodup

/-- A symbol on the bus (40 R86, R87; the spec marks the bus level as general knowledge, log 29). -/
inductive BusSym where
  | start | repStart | stop
  | slaveAck | masterAck | masterNack
  /-- The target byte. -/
  | addr (sa : Byte)
  /-- A byte the master sends. -/
  | sent (b : Byte)
  /-- A byte the device sends. -/
  | received (b : Byte)
deriving DecidableEq, Repr

/-- What an RXBUF entry that holds something holds: a byte, or, after an aborted READ_BURST, nothing specified: every
read of it is a draw (10 R23, 60 R123, R127). -/
inductive RxCell where
  | byte (b : Byte)
  | unspecified
deriving DecidableEq, Repr

/-- What one HOST read gives (60 R136). The spec does not say how much of a register with several entries one read gives:
SV_s and KF[a] come whole, IERR by axis, and TVEC and PWM_WIDTH either one motor's entry or all four at once, so that the
PWM consumer can see the four widths of one tick (43 R116). The model's choice, log 32. -/
inductive ReadTarget where
  | engStatus | engResult | sched
  | sv (s : Sensor)
  | kf (a : Axis)
  | ierr (a : Axis)
  | torque | cfg
  | tvec (i : Fin 4)
  | pwmWidth (i : Fin 4)
  /-- All four entries of TVEC in one step. -/
  | tvecAll
  /-- All four entries of PWM_WIDTH in one step. -/
  | pwmWidthAll
deriving DecidableEq, Repr

/-- What the HOST may not write (60 R136). -/
inductive WriteTarget where
  | engReq | txbuf
  | sv (s : Sensor)
  | kf (a : Axis)
  | ierr (a : Axis)
  | tvec (i : Fin 4)
  | pwmWidth (i : Fin 4)
deriving DecidableEq, Repr

/-- The two outputs BUSCTL may read (60 R127, BC_UNWRITTEN). -/
inductive BusPort where
  | sa | drOut
deriving DecidableEq, Repr

/-- One step of one of the five agents (60 R120), with the draws and inputs the environment chooses for it. -/
inductive SysTurn where
  /-- The ENGINE's next step, if it is enabled (40 R76). -/
  | engine
  /-- The SAMPLER's next step, if it is enabled (41 R91, R94, R95). -/
  | sampler
  /-- BUSCTL completes the command: BC_ERR, BC_DR_IN and, after an error, BC_HELD are its draws (40 R86). -/
  | complete (err : Bool) (byte : Byte) (held : Bool)
  /-- BUSCTL changes BC_BUSY, BC_ERR and BC_DR_IN other than by a completion: outside the contract (40 R86 item 4). It is
  refused under an asserted reset too, and where the values are those the inputs have: the model's choice (log 35). -/
  | busDrive (busy err : Bool) (drIn : Byte)
  /-- BUSCTL reads one of the ENGINE's outputs (60 R127). -/
  | busRead (p : BusPort)
  /-- The HOST presents one event (30 R63). -/
  | event (ev : BitVec 3) (operand : Word)
  /-- The HOST presents two event codes in one step, which it may not (60 R136). Whether a pair with 0b000 in it is two
  events the spec does not say; the model's choice is that every pair is, and that one event with nothing beside it is
  presented by `event` (log 33). -/
  | twoEvents (ev₁ : BitVec 3) (operand₁ : Word) (ev₂ : BitVec 3) (operand₂ : Word)
  /-- The HOST reads a register (60 R136). -/
  | hostRead (t : ReadTarget)
  /-- The HOST writes a register it may not write (60 R136). -/
  | hostWrite (t : WriteTarget) (v : Word)
  /-- The HOST asserts reset (70 R138). -/
  | assertReset
  /-- The HOST releases reset; BC_BUSY, BC_ERR, BC_DR_IN and BC_HELD are then the platform's (70 R138, R140). -/
  | releaseReset (busy err : Bool) (drIn : Byte) (held : Bool)
deriving DecidableEq, Repr, Inhabited

/-- One step of a test client in the SAMPLER's place (40 R72, 95 P5). -/
inductive ClientTurn where
  /-- The client writes a request word to ENG_REQ (40 R73). -/
  | request (w : Word)
  /-- The client writes TXBUF[j] (30 R69). -/
  | txb (j : Nat) (b : Byte)
  /-- The client reads RXBUF[j] (40 R72 step 5). -/
  | rxb (j : Nat)
  /-- The client reads ENG_STATUS (10 R16, 40 R72 step 3). -/
  | status
  /-- The client reads ENG_RESULT (10 R16, 40 R72 step 4). -/
  | result
  /-- The client holds until DONE = 1 and then reads ENG_STATUS.FAIL and ENG_RESULT (40 R72 steps 3 and 4, log 20). -/
  | collect
deriving DecidableEq, Repr

/-- A step somebody takes. -/
inductive Turn where
  | sys (t : SysTurn)
  | client (t : ClientTurn)
deriving DecidableEq, Repr

end Sys2Proof.Machine
end

