-- ==== Sys2Proof/Config.lean ====
section
/-! DEFINITION. What an implementation fixes (00_scope.md R7) and the free values. A constant here has no body:
nothing can be proved of its value, so a statement that names one holds for every value. -/

namespace Sys2Proof

open Machine

/-- The parameters of 00 R7 that are plain data, and REG_PLACEMENT of 93 section 2. Every value of this type is a legal choice: NMAX and PWM_BASE are held
as their distance from their least value. -/
structure Params where
  /-- NMAX - 6, so that 6 ≤ NMAX ≤ 255 (92 D5). -/
  nmaxOver6 : Fin 250
  /-- DEV_s (92 D13). -/
  dev : PerSensor (BitVec 7)
  /-- REG_OUT_s (92 D13). -/
  regOut : PerSensor Byte
  /-- INIT_REG_s (92 D13). -/
  initReg : PerSensor Byte
  /-- INIT_VAL_s (92 D13). -/
  initVal : PerSensor Byte
  /-- AXIS_ORDER_s (92 D14). -/
  axisOrder : PerSensor AxisOrder
  /-- GYRO_SENS (92 D18). -/
  gyroSens : F32
  /-- GYRO_AXIS (92 D18). -/
  gyroAxis : PerAxis Comp
  /-- PWM_BASE - 1, so that 1 ≤ PWM_BASE ≤ 2^23 (92 D26). -/
  pwmBaseOver1 : Fin 0x800000
  /-- MIX_EN_RESET (92 D23). -/
  mixEnReset : Bool
  /-- CMD_ENC (92 D3). -/
  cmdEnc : CmdEnc
  /-- SAMPLE_HZ, which no rule reads (92 D38, 00 R8, log 23). -/
  sampleHz : Rat
  /-- CONTROL_HZ, which no rule reads (92 D38, 00 R8, log 23). -/
  controlHz : Rat
  /-- REG_PLACEMENT, which no rule reads: the host address of each register, by its name in 10 R16, that has one (92 D44,
  20 R49, log 23). -/
  regPlacement : List (String × Nat)
deriving DecidableEq, Repr

/-- NMAX (92 D5). The sum has its literal last so that `1 ≤ n ≤ 6` evaluates whatever the free part is. -/
def Params.nmax (p : Params) : Nat := p.nmaxOver6.val + 6

/-- PWM_BASE (92 D26). -/
def Params.pwmBase (p : Params) : Nat := p.pwmBaseOver1.val + 1

/-- OPEN (92 D5, log 7). -/
opaque Config.nmaxOver6 : Fin 250
/-- OPEN (92 D13, log 7). -/
opaque Config.dev : PerSensor (BitVec 7)
/-- OPEN (92 D13, log 7). -/
opaque Config.regOut : PerSensor Byte
/-- OPEN (92 D13, log 7). -/
opaque Config.initReg : PerSensor Byte
/-- OPEN (92 D13, log 7). -/
opaque Config.initVal : PerSensor Byte
/-- OPEN (92 D18, log 7). -/
opaque Config.gyroSens : F32
/-- OPEN (92 D26, log 7). -/
opaque Config.pwmBaseOver1 : Fin 0x800000

/-- OPEN (92 D38; reference value 600, logs 7, 23). -/
opaque Config.sampleHz : Rat
/-- OPEN (92 D38; reference value 100, logs 7, 23). -/
opaque Config.controlHz : Rat
/-- OPEN (92 D44, logs 7, 23). -/
opaque Config.regPlacement : List (String × Nat)

/-- The parameters of the machine after power-on: the OPEN ones free, AXIS_ORDER_s, GYRO_AXIS, MIX_EN_RESET and
CMD_ENC at the spec's defaults (00 R7, log 8). -/
def Config.params : Params where
  nmaxOver6 := Config.nmaxOver6
  dev := Config.dev
  regOut := Config.regOut
  initReg := Config.initReg
  initVal := Config.initVal
  axisOrder := ⟨.xyz, .xyz, .xyz⟩
  gyroSens := Config.gyroSens
  gyroAxis := ⟨.x, .y, .z⟩
  pwmBaseOver1 := Config.pwmBaseOver1
  mixEnReset := false
  cmdEnc := CmdEnc.standard
  sampleHz := Config.sampleHz
  controlHz := Config.controlHz
  regPlacement := Config.regPlacement

/-- MEAS_ROLL, a total function of SV_ACC's components (42 R102, log 9). -/
opaque Config.measRoll : F32 → F32 → F32 → F32

/-- MEAS_PITCH, a total function of SV_ACC's components (42 R102, log 9). -/
opaque Config.measPitch : F32 → F32 → F32 → F32

/-- MEAS_YAW, a total function of SV_MAG, SV_ACC and the roll and pitch angles (42 R102, log 9). -/
opaque Config.measYaw : Vec3 F32 → Vec3 F32 → F32 → F32 → F32

/-- The byte a read of an unspecified RXBUF entry yields, by draw number (60 R127, log 11). -/
opaque Config.freeByte : Nat → Byte

/-- Sign and payload of the NaN word a reader sees, by draw number (92 D19, log 10). -/
opaque Config.nanPayload : Nat → Word

/-- What BUSCTL puts on the bus for a BURST_SEND_START of a byte to a target while the bus is still held, by draw number
(40 R86, 92 D41, log 29). -/
opaque Config.heldSendStart : Nat → Byte → Byte → List BusSym

/-- `f2u_trunc` outside [0, 2^32), which no rule reaches (00 R13, 43 R119, log 12). -/
opaque Config.f2uOutside : F32 → Word

/-- Who moves next, by draw number, when the agenda is empty: any of the five agents (20 R51, log 2). -/
opaque Config.freeTurn : Nat → SysTurn

end Sys2Proof
end

