-- ==== Sys2Proof/Machine/Float.lean ====
section
/-! DEFINITION. IEEE 754 binary32 under round-to-nearest-even, one rounding an operator, subnormals kept
(00_scope.md R13). Every finite datum is an integer multiple of 2^-149, so each operator computes exactly in integers
and rounds once. -/

namespace Sys2Proof.Machine

/-- The magnitude of infinity: the largest that is not a NaN's. -/
def infMag : Nat := 0x7F800000

/-- The datum of a sign and a magnitude; a magnitude above infinity's is infinity. -/
def f32OfMag (neg : Bool) (m : Nat) : F32 :=
  if h : m < F32.magBound then .num neg ⟨m, h⟩ else .num neg ⟨infMag, by decide⟩

/-- The datum of a binary32 word. -/
def f32OfBits (w : Word) : F32 :=
  if h : w.toNat % 2 ^ 31 < F32.magBound then .num w.msb ⟨w.toNat % 2 ^ 31, h⟩ else .nan

/-- The word of a NaN with the sign and payload bits of `f`: exponent all ones, fraction not zero. -/
def nanWord (f : Word) : Word :=
  let w := f ||| 0x7F800000#32
  if w &&& 0x007FFFFF#32 = 0#32 then w ||| 1#32 else w

/-- The binary32 word of a datum, `payload` standing for the free sign and payload of a NaN. -/
def f32Word (payload : Word) : F32 → Word
  | .nan => nanWord payload
  | .num neg m => BitVec.ofNat 32 ((if neg then 2 ^ 31 else 0) + m.val)

/-- A finite magnitude as a count of 2^-149. -/
def magUnits (m : Nat) : Nat :=
  if m < 2 ^ 23 then m else (2 ^ 23 + m % 2 ^ 23) * 2 ^ (m / 2 ^ 23 - 1)

/-- The magnitude nearest to n/d counts of 2^-149, ties to even. -/
def roundMag (n d : Nat) : Nat :=
  let k := Nat.log2 (n / d) - 23
  let u := d * 2 ^ k
  let q := n / u
  let r := n % u
  k * 2 ^ 23 + (if 2 * r < u then q else if u < 2 * r then q + 1 else q + q % 2)

/-- A finite datum as a signed count of 2^-149. -/
def signedUnits (neg : Bool) (m : Nat) : Int :=
  if neg then -(magUnits m : Int) else (magUnits m : Int)

/-- `a + b`. An exact zero sum is -0.0 only when both operands carry the sign. -/
def fadd (a b : F32) : F32 :=
  match a, b with
  | .nan, _ => .nan
  | .num _ _, .nan => .nan
  | .num sa ma, .num sb mb =>
    if ma.val = infMag then
      if mb.val = infMag ∧ sa ≠ sb then .nan else .num sa ma
    else if mb.val = infMag then .num sb mb
    else
      let z := signedUnits sa ma.val + signedUnits sb mb.val
      if z = 0 then f32OfMag (sa && sb) 0 else f32OfMag (decide (z < 0)) (roundMag z.natAbs 1)

/-- `-v` flips the sign bit. -/
def fneg : F32 → F32
  | .nan => .nan
  | .num s m => .num (!s) m

/-- `a - b`. -/
def fsub (a b : F32) : F32 := fadd a (fneg b)

/-- `a * b`. -/
def fmul (a b : F32) : F32 :=
  match a, b with
  | .nan, _ => .nan
  | .num _ _, .nan => .nan
  | .num sa ma, .num sb mb =>
    if ma.val = infMag ∨ mb.val = infMag then
      if ma.val = 0 ∨ mb.val = 0 then .nan else f32OfMag (sa != sb) infMag
    else f32OfMag (sa != sb) (roundMag (magUnits ma.val * magUnits mb.val) (2 ^ 149))

/-- `a / b`. -/
def fdiv (a b : F32) : F32 :=
  match a, b with
  | .nan, _ => .nan
  | .num _ _, .nan => .nan
  | .num sa ma, .num sb mb =>
    if ma.val = infMag then
      if mb.val = infMag then .nan else f32OfMag (sa != sb) infMag
    else if mb.val = infMag then f32OfMag (sa != sb) 0
    else if mb.val = 0 then
      if ma.val = 0 then .nan else f32OfMag (sa != sb) infMag
    else f32OfMag (sa != sb) (roundMag (magUnits ma.val * 2 ^ 149) (magUnits mb.val))

/-- A signed magnitude; both zeros give 0. -/
def magKey (neg : Bool) (m : Nat) : Int := if neg then -(m : Int) else (m : Int)

/-- `a < b`, false when either is NaN. -/
def flt (a b : F32) : Bool :=
  match a, b with
  | .num sa ma, .num sb mb => decide (magKey sa ma.val < magKey sb mb.val)
  | .nan, _ => false
  | .num _ _, .nan => false

/-- `i2f`: the nearest binary32 of an integer, ties to even. -/
def i2f (z : Int) : F32 :=
  f32OfMag (decide (z < 0)) (roundMag (z.natAbs * 2 ^ 149) 1)

/-- `f2u_trunc`: truncation toward zero of a datum in [0, 2^32); outside, a free value (log 12). -/
def f2uTrunc (a : F32) : Word :=
  match a with
  | .nan => Config.f2uOutside .nan
  | .num s m =>
    if m.val < infMag ∧ (s = false ∨ m.val = 0) ∧ magUnits m.val / 2 ^ 149 < 2 ^ 32
    then BitVec.ofNat 32 (magUnits m.val / 2 ^ 149)
    else Config.f2uOutside (.num s m)

/-- A datum that is neither NaN nor infinite. -/
def isFinite : F32 → Bool
  | .nan => false
  | .num _ m => decide (m.val < infMag)

/-- +0.0. -/
def f32Zero : F32 := f32OfBits 0x00000000#32
/-- 1.0. -/
def f32One : F32 := f32OfBits 0x3F800000#32
/-- DT = 0.01 (00 R6). -/
def constDt : F32 := f32OfBits 0x3C23D70A#32
/-- Q00 = 0.1 (00 R6). -/
def constQ00 : F32 := f32OfBits 0x3DCCCCCD#32
/-- Q11 = 10.0 (00 R6). -/
def constQ11 : F32 := f32OfBits 0x41200000#32
/-- Q22 = 0.001 (00 R6). -/
def constQ22 : F32 := f32OfBits 0x3A83126F#32
/-- R00 = 1000.0 (00 R6). -/
def constR00 : F32 := f32OfBits 0x447A0000#32
/-- R11 = 1000.0 (00 R6). -/
def constR11 : F32 := f32OfBits 0x447A0000#32
/-- The diagonal of P at reset, 1000 (00 R6). -/
def constPInit : F32 := f32OfBits 0x447A0000#32
/-- KP = 0.01 (00 R6). -/
def constKp : F32 := f32OfBits 0x3C23D70A#32
/-- KD = 0.01 (00 R6). -/
def constKd : F32 := f32OfBits 0x3C23D70A#32
/-- KI = 0.001 (00 R6). -/
def constKi : F32 := f32OfBits 0x3A83126F#32
/-- SMOOTH_DIV = 10 (00 R6). -/
def constSmoothDiv : F32 := f32OfBits 0x41200000#32
/-- CLAMP_LO = 0 (00 R6). -/
def constClampLo : F32 := f32OfBits 0x00000000#32
/-- CLAMP_HI = 100 (00 R6). -/
def constClampHi : F32 := f32OfBits 0x42C80000#32
/-- MAP_DIV = 100 (00 R6). -/
def constMapDiv : F32 := f32OfBits 0x42C80000#32
/-- The desired attitude, 0 (00 R6). -/
def constDesired : F32 := f32OfBits 0x00000000#32

end Sys2Proof.Machine
end

