-- ==== Sys2Proof/Machine/State.lean ====
section
/-! DEFINITION. The state of the block (10_state.md R16), of its bus interface, of the reset input and of the model's
marks, as plain data; the reasons a step can stop; and the state after reset (70_reset_and_hazards.md R139). -/

namespace Sys2Proof.Machine

/-- A read of state that holds no value, or of an entry that does not exist (60 R127). Every fault is safe: the machine
stops, and nothing can be proved of what the hardware does then. -/
inductive Fault where
  /-- A WRITE_BURST accept (or the issue of its data byte) finds TXBUF[j], j < n, with no value (40 R73, 60 R127). Safe. -/
  | txbufUnwritten
  /-- A read of an RXBUF entry that no READ_BURST has written since reset (60 R127): the SAMPLER's or a client's. Safe. -/
  | rxbufUnwritten
  /-- TVEC_UNWRITTEN: a HOST read of TVEC before the first control tick, raised by the read (60 R127's table, 60 R136,
  92 D27, 93 section 2, 95 section 3.6). Safe. -/
  | tvecUnwritten
  /-- PWM_UNWRITTEN: a HOST read of PWM_WIDTH before the first control tick, raised by the read (60 R127's table, 43 R116,
  92 D27, 93 section 2, 95 section 3.6). Safe. -/
  | pwmUnwritten
  /-- BC_UNWRITTEN: a BUSCTL read of BC_SA or BC_DR_OUT before the first BusIssue, raised by the read (60 R127's table,
  93 section 2). Safe. -/
  | bcUnwritten
  /-- A client's access to TXBUF[j] or RXBUF[j] with j ≥ NMAX: the entry does not exist (10 R23, 20 R40; log 18). Safe. -/
  | bufferIndex
  /-- A read of ENG_REQ before its first write, raised by the issue of WRITE_BYTE's data byte: "a read before the first
  write faults" (70 R139, whose row for ENG_REQ is "no value"; 60 R127). No run reaches it (log 19). Safe. -/
  | engReqUnwritten
deriving DecidableEq, Repr

/-- An input the block gives no meaning (60 R126, R136). Every refusal is safe: the input changes no state. -/
inductive Refusal where
  /-- exec, for an instruction that has no meaning yet. Safe. -/
  | notModelled (mnemonic : String)
  /-- REQ_ILLEGAL: a request word illegal under 30 R67 items 1 to 3, raised at the accept. Safe. -/
  | reqIllegal
  /-- REQ_BUSY: a write of ENG_REQ while ENG_SEQ is not IDLE (60 R126), raised at the accept. Safe. -/
  | reqBusy
  /-- TXBUF_BUSY: a write of TXBUF while EBUSY = 1 (60 R126), raised by the client's write. Safe. -/
  | txbufBusy
  /-- EVENT_RESERVED: EV = 0b101, 0b110 or 0b111 (60 R126), raised by the event port. Safe. -/
  | eventReserved
  /-- The HOST writes ENG_REQ, TXBUF, SV_*, KF, IERR, TVEC or PWM_WIDTH (60 R136), raised by the write. Safe. -/
  | hostWrite
  /-- The HOST presents two events in one step (60 R136), raised by the event port; any pair of codes (log 33). Safe. -/
  | twoEvents
  /-- BC_BUSY, BC_ERR or BC_DR_IN changes outside the contract of 40 R86 (60 R136), raised by BUSCTL's turn, under an
  asserted reset too (log 35). Safe. -/
  | busContract
  /-- A bus command that is not the one the ENGINE issues in this step (40 R76, R77): nobody issues it (log 14),
  raised by the seven bus commands. Safe. -/
  | busCmdNotDue
  /-- A release of a reset that is not asserted (70 R138: "asserted, then released"; log 16), raised by the release. Safe. -/
  | resetNotAsserted
deriving DecidableEq, Repr

/-- Byte memory as a canonical list: indices strictly rising; an index that is not listed holds no value (10 R23). -/
abbrev Memory := List Host.Cell

/-- RXBUF, in the same form (10 R23). -/
abbrev RxBuf := List (Nat × RxCell)

/-- The state (10 R16). -/
structure State where
  /-- ENG_SEQ (10 R19). -/
  engSeq : EngSeq
  /-- ENG_REQ; `none` is the spec's "no value" (10 R20). -/
  engReq : Option Word
  /-- ENG_STATUS (10 R21). -/
  engStatus : Byte
  /-- ENG_RESULT (10 R22). -/
  engResult : Byte
  /-- RXBUF (10 R23). -/
  rxbuf : RxBuf
  /-- TXBUF (10 R23). -/
  txbuf : Memory
  /-- BC_SA; `none` is the spec's "no value" (10 R24). -/
  bcSa : Option Byte
  /-- BC_DR_OUT; `none` is the spec's "no value" (10 R24). -/
  bcDrOut : Option Byte
  /-- The BC_CMD strobe of the step just taken, if that step was a BusIssue (10 R24, log 13). -/
  bcCmd : Option (BitVec 4)
  /-- BC_BUSY (10 R25). -/
  bcBusy : Bool
  /-- BC_ERR (10 R25). -/
  bcErr : Bool
  /-- BC_DR_IN (10 R25). -/
  bcDrIn : Byte
  /-- BUSCTL's own: BC_HELD, whether the bus is held (10 R37). -/
  bcHeld : Bool
  /-- BUSCTL's own: the command in flight, if it is known (40 R86, log 15). -/
  busInFlight : Option BusCmd
  /-- SMP_SEQ (10 R27). -/
  smpSeq : SmpSeq
  /-- SCHED (10 R28). -/
  sched : Sensor
  /-- SMP_PEND (10 R29). -/
  smpPend : Bool
  /-- SV_ACC, SV_GYR, SV_MAG (10 R30). -/
  sv : PerSensor (Vec3 F32)
  /-- KF[ROLL], KF[PITCH], KF[YAW] (10 R31). -/
  kf : PerAxis Kf
  /-- IERR[ROLL], IERR[PITCH], IERR[YAW] (10 R32). -/
  ierr : PerAxis F32
  /-- TVEC[0..3], written all four at once; `none` is the spec's "no value" (10 R33, 20 R47). -/
  tvec : Option (Motors F32)
  /-- TORQUE (10 R34). -/
  torque : Word
  /-- CFG (10 R35). -/
  cfg : Word
  /-- PWM_WIDTH[0..3], written all four at once; `none` is the spec's "no value" (10 R36, 20 R47). -/
  pwmWidth : Option (Motors Word)
  /-- The REFUSED mark with its reason (60 R126), set by `record` of Safety.lean, clear after reset (70 R139). -/
  refusedMark : Option Refusal
  /-- The FAULT mark with its reason (60 R127), set by `record` of Safety.lean, clear after reset (70 R139). -/
  faultMark : Option Fault
  /-- Whether the reset input is asserted (70 R138). -/
  resetAsserted : Bool
  /-- The model's own: the parameters of the machine, which no step changes (00 R7, 70 R140). -/
  params : Params
  /-- The model's own: the turns still to be taken, the next one first (20 R51, log 1). -/
  agenda : List Turn
  /-- The model's own: how many free values have been drawn (log 26). -/
  draws : Nat
  /-- The model's own: the words the last read gave its reader (60 R136, log 25). -/
  readOut : List Word
deriving DecidableEq, Repr

/-- KF[a] after reset: x = [0,0,0], P = diag(1000,1000,1000) (10 R31). -/
def Kf.reset : Kf where
  x0 := f32Zero
  x1 := f32Zero
  x2 := f32Zero
  p00 := constPInit
  p01 := f32Zero
  p02 := f32Zero
  p10 := f32Zero
  p11 := constPInit
  p12 := f32Zero
  p20 := f32Zero
  p21 := f32Zero
  p22 := constPInit

/-- CFG holding MIX_EN alone, bits 31:1 = 0 (10 R35). -/
def cfgOf (mixEn : Bool) : Word := if mixEn then 1#32 else 0#32

/-- The machine right after reset (70 R139). BC_BUSY = 0 is required of the platform (70 R140); BC_ERR, BC_DR_IN and
BC_HELD are the platform's and named by log 6. -/
def State.reset : State where
  engSeq := .idle
  engReq := none
  engStatus := 0x00#8
  engResult := 0x00#8
  rxbuf := []
  txbuf := []
  bcSa := none
  bcDrOut := none
  bcCmd := none
  bcBusy := false
  bcErr := false
  bcDrIn := 0x00#8
  bcHeld := false
  busInFlight := none
  smpSeq := .boot .acc
  sched := .acc
  smpPend := false
  sv := ⟨⟨f32Zero, f32Zero, f32Zero⟩, ⟨f32Zero, f32Zero, f32Zero⟩, ⟨f32Zero, f32Zero, f32Zero⟩⟩
  kf := ⟨Kf.reset, Kf.reset, Kf.reset⟩
  ierr := ⟨f32Zero, f32Zero, f32Zero⟩
  tvec := none
  torque := 0#32
  cfg := cfgOf Config.params.mixEnReset
  pwmWidth := none
  refusedMark := none
  faultMark := none
  resetAsserted := false
  params := Config.params
  agenda := []
  draws := 0
  readOut := []

end Sys2Proof.Machine
end

