-- ==== Sys2Proof/Machine/Flags.lean ====
section
/-! DEFINITION. The status flags of the block (10_state.md R21, R26, R35). No rule computes a flag from a value. -/

namespace Sys2Proof.Machine

/-- ENG_STATUS from its three fields; bits 7:3 read as 0 (10 R21). -/
def statusWord (ebusy done fail : Bool) : Byte :=
  0#5 ++ BitVec.ofBool fail ++ BitVec.ofBool done ++ BitVec.ofBool ebusy

/-- EBUSY (10 R21). -/
def statusEbusy (w : Byte) : Bool := w.getLsbD 0

/-- DONE (10 R21). -/
def statusDone (w : Byte) : Bool := w.getLsbD 1

/-- FAIL, meaningful only while DONE = 1 (10 R21). -/
def statusFail (w : Byte) : Bool := w.getLsbD 2

/-- ENG_STATUS as it is read: bits 7:3 read as 0 (10 R21). -/
def statusRead (w : Byte) : Byte := w &&& 0x07#8

/-- CFG.MIX_EN (10 R35). -/
def cfgMixEn (w : Word) : Bool := w.getLsbD 0

/-- CFG as it is read: bits 31:1 read as 0 (10 R35). -/
def cfgRead (w : Word) : Word := w &&& 1#32

end Sys2Proof.Machine
end

