-- ==== Sys2Proof/Syntax.lean ====
section
/-! DEFINITION. The fifteen forms of spec/opcode_table.json (30_encoding.md R66): four requests, seven bus commands,
four events. The count of a burst is the raw field of the word; WellFormed.lean says which counts are legal. -/

namespace Sys2Proof

/-- One constructor for each row of the opcode table. -/
inductive Instr where
  /-- RDB dev, reg (40 R79). -/
  | rdb (dev : BitVec 7) (reg : Byte)
  /-- WRB dev, reg, data (40 R80). -/
  | wrb (dev : BitVec 7) (reg : Byte) (data : Byte)
  /-- RDN dev, reg, n (40 R81). -/
  | rdn (dev : BitVec 7) (reg : Byte) (n : Byte)
  /-- WRN dev, reg, n (40 R82). -/
  | wrn (dev : BitVec 7) (reg : Byte) (n : Byte)
  /-- The register-address byte of every operation (40 R75). -/
  | burstSendStart
  /-- An interior data byte of a write (40 R75). -/
  | burstSendCont
  /-- The last data byte of a write (40 R75). -/
  | burstSendFinish
  /-- The only byte of a one-byte read (40 R74). -/
  | singleReceive
  /-- Byte 0 of a multi-byte read (40 R74). -/
  | burstReceiveStart
  /-- An interior byte of a multi-byte read (40 R74). -/
  | burstReceiveCont
  /-- The final byte of a multi-byte read (40 R74). -/
  | burstReceiveFinish
  /-- SAMPLE_TICK; its operand is ignored (41 R92). -/
  | tickS
  /-- CONTROL_TICK; its operand is ignored (43 R111). -/
  | tickC
  /-- TORQUE_WRITE of an i32 (43 R117). -/
  | torq (v : Word)
  /-- CFG_WRITE of a u32 (43 R118). -/
  | cfg (v : Word)
deriving DecidableEq, Repr

end Sys2Proof
end

