-- ==== Sys2Proof/WellFormed.lean ====
section
/-! DEFINITION. Which instructions are legal for a given NMAX (30_encoding.md R67 item 3). -/

namespace Sys2Proof

/-- A burst count is legal when 1 ≤ n ≤ NMAX (30 R60, R67). -/
def countLegal (nmax : Nat) (n : Byte) : Bool :=
  decide (1 ≤ n.toNat) && decide (n.toNat ≤ nmax)

/-- The check of an instruction: the bursts carry a legal count; every other form is legal whatever its operands. -/
def Instr.wellFormed (nmax : Nat) : Instr → Bool
  | .rdn _ _ n => countLegal nmax n
  | .wrn _ _ n => countLegal nmax n
  | .rdb _ _ => true
  | .wrb _ _ _ => true
  | .burstSendStart => true
  | .burstSendCont => true
  | .burstSendFinish => true
  | .singleReceive => true
  | .burstReceiveStart => true
  | .burstReceiveCont => true
  | .burstReceiveFinish => true
  | .tickS => true
  | .tickC => true
  | .torq _ => true
  | .cfg _ => true

end Sys2Proof
end

