-- ==== Sys2Proof/Decode.lean ====
section
/-! DEFINITION. The decoder of the three formats REQ, CMD and EVENT, total and rejecting by name, and the encoder
written from the same tables (30_encoding.md R60, R61, R63, R65, R67). -/

namespace Sys2Proof

open Machine

/-- What carries an instruction: a request word, the key {rs, CMD[3:0]}, or an event code with its operand (30 R59). -/
inductive Wire where
  | req (w : Word)
  | cmd (key : BitVec 5)
  | event (ev : BitVec 3) (operand : Word)
deriving DecidableEq, Repr

/-- Why a wire carries no instruction (30 R63, R67). -/
inductive DecodeError where
  /-- R67 item 1: RSV0 or RSV1 is not 0. -/
  | reqReserved
  /-- R67 item 2: READ_BYTE with ARG not 0. -/
  | reqArg
  /-- R67 item 5: one of the 25 keys the ENGINE never issues. -/
  | cmdUnused
  /-- R63: EV = 0b000 is no event. -/
  | eventNone
  /-- R67 item 4: EV = 0b101, 0b110 or 0b111. -/
  | eventReserved
deriving DecidableEq, Repr

/-- REQ[1:0] (30 R60). -/
def reqOp (w : Word) : BitVec 2 := w.extractLsb' 0 2

/-- REQ[7:2], must be 0 (30 R60). -/
def reqRsv0 (w : Word) : BitVec 6 := w.extractLsb' 2 6

/-- REQ[14:8] (30 R60, R65). -/
def reqDev (w : Word) : BitVec 7 := w.extractLsb' 8 7

/-- REQ[15], must be 0 (30 R60). -/
def reqRsv1 (w : Word) : BitVec 1 := w.extractLsb' 15 1

/-- REQ[23:16] (30 R60, R65). -/
def reqReg (w : Word) : Byte := w.extractLsb' 16 8

/-- REQ[31:24] (30 R60, R65). -/
def reqArg (w : Word) : Byte := w.extractLsb' 24 8

/-- The request word {ARG, REG, 0, DEV, 0b000000, OP} (30 R60). -/
def reqWord (arg reg : Byte) (dev : BitVec 7) (op : BitVec 2) : Word :=
  arg ++ reg ++ 0#1 ++ dev ++ 0#6 ++ op

/-- The request a word carries. The count of a burst is not checked here: NMAX is no part of the word (30 R67 item 3). -/
def decodeReq (w : Word) : Except DecodeError Instr :=
  if reqRsv0 w ≠ 0#6 ∨ reqRsv1 w ≠ 0#1 then .error .reqReserved
  else if reqOp w = 0#2 then
    if reqArg w ≠ 0#8 then .error .reqArg else .ok (.rdb (reqDev w) (reqReg w))
  else if reqOp w = 1#2 then .ok (.wrb (reqDev w) (reqReg w) (reqArg w))
  else if reqOp w = 2#2 then .ok (.rdn (reqDev w) (reqReg w) (reqArg w))
  else .ok (.wrn (reqDev w) (reqReg w) (reqArg w))

/-- The row of the opcode table a bus command is (30 R61). -/
def Machine.BusCmd.instr : BusCmd → Instr
  | .sendStart => .burstSendStart
  | .sendCont => .burstSendCont
  | .sendFinish => .burstSendFinish
  | .singleReceive => .singleReceive
  | .receiveStart => .burstReceiveStart
  | .receiveCont => .burstReceiveCont
  | .receiveFinish => .burstReceiveFinish

/-- The bus command of a key {rs, CMD[3:0]} under a CMD_ENC, if it is one of the seven (30 R61, R66). -/
def cmdOfKey (e : CmdEnc) (key : BitVec 5) : Option BusCmd :=
  [BusCmd.sendStart, .sendCont, .sendFinish, .singleReceive, .receiveStart, .receiveCont, .receiveFinish].find?
    (fun c => e.key c == key)

/-- The instruction of a key under a CMD_ENC (30 R66, R67 item 5). -/
def decodeCmd (e : CmdEnc) (key : BitVec 5) : Except DecodeError Instr :=
  match cmdOfKey e key with
  | some c => .ok c.instr
  | none => .error .cmdUnused

/-- The event of a code and its operand (30 R63). -/
def decodeEvent (ev : BitVec 3) (operand : Word) : Except DecodeError Instr :=
  if ev = 0b000#3 then .error .eventNone
  else if ev = 0b001#3 then .ok .tickS
  else if ev = 0b010#3 then .ok .tickC
  else if ev = 0b011#3 then .ok (.torq operand)
  else if ev = 0b100#3 then .ok (.cfg operand)
  else .error .eventReserved

/-- The decoder under a CMD_ENC (30 R66). -/
def decodeWith (e : CmdEnc) : Wire → Except DecodeError Instr
  | .req w => decodeReq w
  | .cmd key => decodeCmd e key
  | .event ev operand => decodeEvent ev operand

/-- The decoder of the table of 30 R61. -/
def decode (x : Wire) : Except DecodeError Instr := decodeWith CmdEnc.standard x

/-- The encoder under a CMD_ENC: the wire of each instruction, from the tables of 30 R60, R61 and R63. An ignored operand is
sent as 0. -/
def encodeWith (e : CmdEnc) : Instr → Wire
  | .rdb dev reg => .req (reqWord 0#8 reg dev 0b00#2)
  | .wrb dev reg data => .req (reqWord data reg dev 0b01#2)
  | .rdn dev reg n => .req (reqWord n reg dev 0b10#2)
  | .wrn dev reg n => .req (reqWord n reg dev 0b11#2)
  | .burstSendStart => .cmd (e.key .sendStart)
  | .burstSendCont => .cmd (e.key .sendCont)
  | .burstSendFinish => .cmd (e.key .sendFinish)
  | .singleReceive => .cmd (e.key .singleReceive)
  | .burstReceiveStart => .cmd (e.key .receiveStart)
  | .burstReceiveCont => .cmd (e.key .receiveCont)
  | .burstReceiveFinish => .cmd (e.key .receiveFinish)
  | .tickS => .event 0b001#3 0#32
  | .tickC => .event 0b010#3 0#32
  | .torq v => .event 0b011#3 v
  | .cfg v => .event 0b100#3 v

/-- The encoder of the table of 30 R61. -/
def encode (i : Instr) : Wire := encodeWith CmdEnc.standard i

/-- The wire of an instruction whose table row has `nbits` bits and whose bits are `w` (log 21). 32 bits are a request
word. 3 bits are an event code, 35 or 40 an event code below its operand, 5 bits a command key. Rows of 3 and of 5 bits
both fill one byte: a byte 1 to 4 is read as an event code, any other as a command key, and one above 31 is no key. -/
def wireOfTable (nbits w : Nat) : Wire :=
  if nbits = 32 then .req (BitVec.ofNat 32 w)
  else if nbits = 3 then .event (BitVec.ofNat 3 w) 0#32
  else if nbits = 5 then .cmd (BitVec.ofNat 5 w)
  else if nbits ≤ 8 then
    if 1 ≤ w ∧ w ≤ 4 then .event (BitVec.ofNat 3 w) 0#32
    else if w < 32 then .cmd (BitVec.ofNat 5 w)
    else .cmd 0#5
  else .event (BitVec.ofNat 3 w) (BitVec.ofNat 32 (w / 8))

/-- The instruction the decoder reads from a row's bits, numbered as the table numbers them. -/
def decodeTableWord (nbits w : Nat) : Option Instr :=
  match decode (wireOfTable nbits w) with
  | .ok i => some i
  | .error _ => none

end Sys2Proof
end

