-- ==== Sys2Proof/Machine/Operands.lean ====
section
/-! DEFINITION. Operand forms: the target byte, the sample words, the integer readings of operands
(30_encoding.md R62, R64, R65), and the choice of the element a rule indexes. -/

namespace Sys2Proof.Machine

/-- The value for a sensor. -/
def PerSensor.get {α : Type} (p : PerSensor α) : Sensor → α
  | .acc => p.acc
  | .gyr => p.gyr
  | .mag => p.mag

/-- The same values but for one sensor. -/
def PerSensor.set {α : Type} (p : PerSensor α) (s : Sensor) (v : α) : PerSensor α :=
  match s with
  | .acc => { p with acc := v }
  | .gyr => { p with gyr := v }
  | .mag => { p with mag := v }

/-- The value for an axis. -/
def PerAxis.get {α : Type} (p : PerAxis α) : Axis → α
  | .roll => p.roll
  | .pitch => p.pitch
  | .yaw => p.yaw

/-- A component of a vector. -/
def Vec3.get {α : Type} (v : Vec3 α) : Comp → α
  | .x => v.x
  | .y => v.y
  | .z => v.z

/-- The value for motor i (00 R14). -/
def Motors.get {α : Type} (m : Motors α) (i : Fin 4) : α :=
  if i = 0 then m.m0 else if i = 1 then m.m1 else if i = 2 then m.m2 else m.m3

/-- SCHED's encoding: ACC = 0, GYR = 1, MAG = 2 (10 R28). -/
def Sensor.code : Sensor → BitVec 2
  | .acc => 0#2
  | .gyr => 1#2
  | .mag => 2#2

/-- The target byte {dev[6:0], rs} (30 R62). -/
def targetByte (dev : BitVec 7) (rs : Bool) : Byte := dev ++ BitVec.ofBool rs

/-- A sample word {hi, lo}, big-endian, read as i16 (20 R44, 30 R65). -/
def sampleWord (hi lo : Byte) : BitVec 16 := hi ++ lo

/-- raw[AXIS_ORDER[j]] <- w_j for j = 0, 1, 2 (30 R64, 41 R90). -/
def placeWords (o : AxisOrder) (w0 w1 w2 : BitVec 16) : Vec3 (BitVec 16) :=
  match o with
  | .xyz => ⟨w0, w1, w2⟩
  | .xzy => ⟨w0, w2, w1⟩
  | .yxz => ⟨w1, w0, w2⟩
  | .yzx => ⟨w2, w0, w1⟩
  | .zxy => ⟨w1, w2, w0⟩
  | .zyx => ⟨w2, w1, w0⟩

/-- The CFG value a CFG_WRITE of `v` leaves: MIX_EN = v[0], bits 31:1 ignored (30 R65, 43 R118). -/
def cfgOperand (v : Word) : Word := cfgOf (v.getLsbD 0)

/-- i2f of TORQUE, read as i32 (30 R65, 43 R119). -/
def torqueF32 (v : Word) : F32 := i2f v.toInt

/-- i2f of a sample word (30 R65, 41 R90). -/
def sampleF32 (r : BitVec 16) : F32 := i2f r.toInt

end Sys2Proof.Machine
end

