-- ==== Sys2Proof/Machine/Ops.lean ====
section
/-! DEFINITION. The operations the meanings share: the engine buffers, the bus primitives of 00_scope.md R11, the
ENGINE's accept, capture and completion, taking the one architectural exception (60_exceptions.md R123), and reset. -/

namespace Sys2Proof.Machine

/-- What a step or a meaning answers. -/
abbrev Result := Host.Outcome State Fault Refusal

/-! ### Buffers (10 R23, 20 R40) -/

/-- The entry at an index, `none` where it holds no value. -/
def memRead {α : Type} : List (Nat × α) → Nat → Option α
  | [], _ => none
  | (k, v) :: m, j => if k = j then some v else memRead m j

/-- The buffer after a write of one entry, in canonical form. -/
def memWrite {α : Type} : List (Nat × α) → Nat → α → List (Nat × α)
  | [], j, v => [(j, v)]
  | (k, w) :: m, j, v =>
    if j < k then (j, v) :: (k, w) :: m
    else if j = k then (j, v) :: m
    else (k, w) :: memWrite m j v

/-- The canonical form: indices strictly rising. -/
abbrev memRising {α : Type} (m : List (Nat × α)) : Prop :=
  m.Pairwise (fun a b => a.1 < b.1)

/-- The canonical form of byte memory; an unlisted index holds no value, so no entry equals what it reads as. -/
abbrev Memory.wf (m : Memory) : Prop := memRising m

/-- Whether entries 0 to n-1 all hold a value. -/
def allWritten {α : Type} (m : List (Nat × α)) : Nat → Bool
  | 0 => true
  | n + 1 => allWritten m n && (memRead m n).isSome

/-- RXBUF with entries 0 to n-1 made unspecified (60 R123). -/
def rxForget : Nat → RxBuf → RxBuf
  | 0, m => m
  | n + 1, m => memWrite (rxForget n m) n .unspecified

/-- A read of RXBUF[j] as draw number `d`: `none` if no READ_BURST has written it, a free byte if it is unspecified
(60 R127, log 11). -/
def rxByte (m : RxBuf) (j d : Nat) : Option Byte :=
  match memRead m j with
  | none => none
  | some (.byte b) => some b
  | some .unspecified => some (Config.freeByte d)

/-! ### The ENGINE (40_i2c_engine.md) -/

/-- BusIssue(sa, dr, cmd), with BUSCTL's BC_BUSY <- 1 in the same step; `none` for dr leaves BC_DR_OUT unchanged
(00 R11, 40 R76, R86). -/
def busIssue (sa : Byte) (dr : Option Byte) (c : BusCmd) (s : State) : State :=
  { s with
    bcSa := some sa
    bcDrOut := dr.or s.bcDrOut
    bcCmd := some (s.params.cmdEnc.code c)
    bcBusy := true
    busInFlight := some c }

/-- The ENGINE begins an operation (40 R73). -/
def beginTxn (op : EngOp) (dev : BitVec 7) (reg : Byte) (n : Nat) (w : Word) (s : State) : State :=
  { s with
    engReq := some w
    engSeq := .active ⟨op, dev, reg, n, 0, .preWait⟩
    engStatus := statusWord true false false }

/-- Accept (40 R73), with the refusals of 60 R126 first: REQ_BUSY before REQ_ILLEGAL (60 R129), then the check that a
WRITE_BURST's bytes are there. -/
def accept (op : EngOp) (dev : BitVec 7) (reg : Byte) (n : Nat) (w : Word) (s : State) : Result :=
  match s.engSeq with
  | .active _ => .refused .reqBusy
  | .idle =>
    if n = 0 ∨ s.params.nmax < n then .refused .reqIllegal
    else if op = .writeBurst ∧ allWritten s.txbuf n = false then .fault .txbufUnwritten
    else .next (beginTxn op dev reg n w s)

/-- The capture of a phase: data byte k-1 of a READ_BURST goes to RXBUF[k-1] (40 R77). -/
def capture (t : Txn) (s : State) : State :=
  { s with
    rxbuf := if t.op = .readBurst ∧ 1 ≤ t.k then memWrite s.rxbuf (t.k - 1) (.byte s.bcDrIn) else s.rxbuf }

/-- ENG_RESULT at completion (40 R78). -/
def resultOf (t : Txn) (drIn : Byte) : Byte :=
  match t.op with
  | .readByte => drIn
  | .readBurst => BitVec.ofNat 8 t.n
  | .writeByte => 0x00#8
  | .writeBurst => 0x00#8

/-- Completion (40 R78). -/
def completeTxn (t : Txn) (s : State) : State :=
  { s with
    engResult := resultOf t s.bcDrIn
    engStatus := statusWord false true false
    engSeq := .idle }

/-- The exception BusFail is taken: the abort of 60 R123. Nothing is saved, no handler is entered and there is no
return (60 R124); a READ_BURST leaves RXBUF[0..n-1] unspecified. -/
def busFail (t : Txn) (s : State) : State :=
  { s with
    engResult := 0x00#8
    rxbuf := if t.op = .readBurst then rxForget t.n s.rxbuf else s.rxbuf
    engStatus := statusWord false true true
    engSeq := .idle }

/-- The ENGINE goes to a stage of a phase (40 R76). -/
def toStage (t : Txn) (k : Nat) (g : Stage) (s : State) : State :=
  { s with engSeq := .active { t with k := k, stage := g } }

/-! ### Reset (70_reset_and_hazards.md R138, R139) -/

/-- Every state element at its reset value, the marks clear among them (70 R139), BUSCTL's inputs at the platform's. The
parameters do not change during a run (70 R140). -/
def resetBlock (busy err : Bool) (drIn : Byte) (held : Bool) (s : State) : State :=
  { State.reset with
    bcBusy := busy
    bcErr := err
    bcDrIn := drIn
    bcHeld := held
    cfg := cfgOf s.params.mixEnReset
    params := s.params
    agenda := s.agenda
    draws := s.draws }

/-- AttitudeEstimate: the view KF[ROLL].x[0], KF[PITCH].x[0], KF[YAW].x[0] (10 R31). -/
def State.attitude (s : State) : PerAxis F32 :=
  ⟨s.kf.roll.x0, s.kf.pitch.x0, s.kf.yaw.x0⟩

end Sys2Proof.Machine
end

