-- ==== Sys2Proof/Machine/Engine.lean ====
section
/-! DEFINITION. The ENGINE: the four requests, the command of each phase, and the ENGINE's own steps
(40_i2c_engine.md). -/

namespace Sys2Proof.Machine

/-- RDB: the client writes a READ_BYTE request and the ENGINE accepts it (40 R73, R79). -/
def execRdb (dev : BitVec 7) (reg : Byte) (s : State) : Result :=
  accept .readByte dev reg 1 (reqWord 0#8 reg dev 0b00#2) s

/-- WRB: the client writes a WRITE_BYTE request and the ENGINE accepts it; the data byte stays in ENG_REQ (40 R73, R80). -/
def execWrb (dev : BitVec 7) (reg data : Byte) (s : State) : Result :=
  accept .writeByte dev reg 1 (reqWord data reg dev 0b01#2) s

/-- RDN: the client writes a READ_BURST request and the ENGINE accepts it (40 R73, R81). -/
def execRdn (dev : BitVec 7) (reg n : Byte) (s : State) : Result :=
  accept .readBurst dev reg n.toNat (reqWord n reg dev 0b10#2) s

/-- WRN: the client writes a WRITE_BURST request and the ENGINE accepts it (40 R73, R82). -/
def execWrn (dev : BitVec 7) (reg n : Byte) (s : State) : Result :=
  accept .writeBurst dev reg n.toNat (reqWord n reg dev 0b11#2) s

/-- RxCmd(j, n): the receive command of data byte j of a read of n bytes (40 R74). -/
def rxCmd (j n : Nat) : BusCmd :=
  if n = 1 then .singleReceive
  else if j = 0 then .receiveStart
  else if j = n - 1 then .receiveFinish
  else .receiveCont

/-- TxCmd(j, n): the send command of data byte j of a write of n bytes (40 R75). -/
def txCmd (j n : Nat) : BusCmd :=
  if j = n - 1 then .sendFinish else .sendCont

/-- The command of the current phase (40 R77). -/
def dueCmd (t : Txn) : BusCmd :=
  if t.k = 0 then .sendStart
  else match t.op with
    | .readByte => rxCmd (t.k - 1) t.n
    | .readBurst => rxCmd (t.k - 1) t.n
    | .writeByte => txCmd (t.k - 1) t.n
    | .writeBurst => txCmd (t.k - 1) t.n

/-- The byte the current phase sends, `none` for a receive (40 R77): the register address, WRITE_BYTE's data from
ENG_REQ[31:24], or TXBUF[k-1]. -/
def dueByte (t : Txn) (s : State) : Except Fault (Option Byte) :=
  if t.k = 0 then .ok (some t.reg)
  else match t.op with
    | .readByte => .ok none
    | .readBurst => .ok none
    | .writeByte =>
      match s.engReq with
      | some w => .ok (some (reqArg w))
      | none => .error .engReqUnwritten
    | .writeBurst =>
      match memRead s.txbuf (t.k - 1) with
      | some b => .ok (some b)
      | none => .error .txbufUnwritten

/-- ISSUE with command `c` (40 R76): the ENGINE's step when `c` is the command of the phase it is about to issue; at any
other time nobody issues `c`, and it is refused (log 14). -/
def issueCmd (c : BusCmd) (s : State) : Result :=
  match s.engSeq with
  | .idle => .refused .busCmdNotDue
  | .active t =>
    if t.stage = .issue ∧ dueCmd t = c then
      match dueByte t s with
      | .error f => .fault f
      | .ok dr => .next (toStage t t.k .postWait (busIssue (targetByte t.dev c.rs) dr c s))
    else .refused .busCmdNotDue

/-- POST_WAIT once BC_BUSY = 0: abort, the next phase, or completion (40 R76, R78, 60 R123). -/
def postWait (t : Txn) (s : State) : State :=
  if s.bcErr then busFail t s
  else if t.k < t.n then toStage t (t.k + 1) .preWait (capture t s)
  else completeTxn t (capture t s)

/-- The ENGINE's step (40 R76): `run` is the execution of an instruction. A step that is held changes nothing (log 3). -/
def engineTurn (run : Instr → State → Result) (s : State) : Result :=
  match s.engSeq with
  | .idle => .next s
  | .active t =>
    match t.stage with
    | .preWait => if s.bcBusy then .next s else .next (toStage t t.k .issue s)
    | .issue => run (dueCmd t).instr s
    | .postWait => if s.bcBusy then .next s else .next (postWait t s)

/-- A client's write of a word to ENG_REQ: refused while the ENGINE is busy, whatever the word (60 R129), else decoded
and run (40 R73, 30 R67). -/
def submit (run : Instr → State → Result) (w : Word) (s : State) : Result :=
  match s.engSeq with
  | .active _ => .refused .reqBusy
  | .idle =>
    match decode (.req w) with
    | .ok i => run i s
    | .error _ => .refused .reqIllegal

/-- A client's write TXBUF[j] <- b (30 R69, 70 R143). -/
def clientTxb (j : Nat) (b : Byte) (s : State) : Result :=
  if statusEbusy s.engStatus then .refused .txbufBusy
  else if s.params.nmax ≤ j then .fault .bufferIndex
  else .next { s with txbuf := memWrite s.txbuf j b }

/-- A client's read of RXBUF[j] (40 R72, 60 R127). -/
def clientRxb (j : Nat) (s : State) : Result :=
  if s.params.nmax ≤ j then .fault .bufferIndex
  else match rxByte s.rxbuf j s.draws with
    | none => .fault .rxbufUnwritten
    | some b => .next { s with readOut := [b.setWidth 32], draws := s.draws + 1 }

/-- ENG_STATUS as a reader's word (10 R21). -/
def statusOut (s : State) : Word := (statusRead s.engStatus).setWidth 32

/-- ENG_RESULT as a reader's word (10 R22). -/
def resultOut (s : State) : Word := s.engResult.setWidth 32

/-- A client's step that holds until DONE = 1 and then reads ENG_STATUS, for FAIL, and ENG_RESULT (40 R72 steps 3, 4). A
step that is held changes nothing (log 3). -/
def clientCollect (s : State) : Result :=
  if statusDone s.engStatus then .next { s with readOut := [statusOut s, resultOut s] } else .next s

end Sys2Proof.Machine
end

