-- ==== Sys2Proof/Machine/Bus.lean ====
section
/-! DEFINITION. The seven bus commands the ENGINE issues, BUSCTL's answer to them, and what each asks of the bus
(30_encoding.md R61, 40_i2c_engine.md R76, R86, R87). -/

namespace Sys2Proof.Machine

/-- BURST_SEND_START: the register-address byte of every operation (40 R75, R76). -/
def execBurstSendStart (s : State) : Result := issueCmd .sendStart s

/-- BURST_SEND_CONT: an interior data byte of a write (40 R75, R76). -/
def execBurstSendCont (s : State) : Result := issueCmd .sendCont s

/-- BURST_SEND_FINISH: the last data byte of a write (40 R75, R76). -/
def execBurstSendFinish (s : State) : Result := issueCmd .sendFinish s

/-- SINGLE_RECEIVE: the only byte of a one-byte read (40 R74, R76). -/
def execSingleReceive (s : State) : Result := issueCmd .singleReceive s

/-- BURST_RECEIVE_START: byte 0 of a multi-byte read (40 R74, R76). -/
def execBurstReceiveStart (s : State) : Result := issueCmd .receiveStart s

/-- BURST_RECEIVE_CONT: an interior byte of a multi-byte read (40 R74, R76). -/
def execBurstReceiveCont (s : State) : Result := issueCmd .receiveCont s

/-- BURST_RECEIVE_FINISH: the final byte of a multi-byte read (40 R74, R76). -/
def execBurstReceiveFinish (s : State) : Result := issueCmd .receiveFinish s

/-- Whether the bus is held after the command has completed without error (40 R86, last column). -/
def BusCmd.heldAfter : BusCmd → Bool
  | .sendStart => true
  | .sendCont => true
  | .sendFinish => false
  | .singleReceive => false
  | .receiveStart => true
  | .receiveCont => true
  | .receiveFinish => false

/-- BC_DR_IN after a completion: the byte when a receive command completes without error (40 R86). Of a command that a
reset cut off nothing is known, and the byte is taken (log 15). -/
def drInAfter (c : Option BusCmd) (err : Bool) (byte old : Byte) : Byte :=
  if err then old
  else match c with
    | some c => if c.rs then byte else old
    | none => byte

/-- BC_HELD after a completion: the command's own after success, a draw after an error (40 R86) or of a command a reset
cut off (log 15). -/
def heldAfterCompletion (c : Option BusCmd) (err held : Bool) : Bool :=
  if err then held
  else match c with
    | some c => c.heldAfter
    | none => held

/-- BUSCTL completes the command in flight (40 R86 item 2); with none in flight it breaks its contract (60 R136). A
completion takes one draw number, so that no two commands share what BUSCTL chose for one of them (log 29). -/
def busComplete (err : Bool) (byte : Byte) (held : Bool) (s : State) : Result :=
  if s.bcBusy then
    .next { s with
      bcBusy := false
      bcErr := err
      bcDrIn := drInAfter s.busInFlight err byte s.bcDrIn
      bcHeld := heldAfterCompletion s.busInFlight err held
      busInFlight := none
      draws := s.draws + 1 }
  else .refused .busContract

/-- BUSCTL reads BC_SA or BC_DR_OUT (60 R127, BC_UNWRITTEN). -/
def busRead (p : BusPort) (s : State) : Result :=
  match (match p with | .sa => s.bcSa | .drOut => s.bcDrOut) with
  | none => .fault .bcUnwritten
  | some b => .next { s with readOut := [b.setWidth 32] }

/-- A START, or a repeated START if the bus is held (30 R61, 40 R86). -/
def startSym (held : Bool) : BusSym := if held then .repStart else .start

/-- What a command that completes without error puts on the bus: `held` is BC_HELD before it, `sa` the target byte, `out`
the byte sent, `inn` the byte received (40 R86). How BUSCTL treats a BURST_SEND_START on a bus that is still held is draw
number `d` (40 R86, log 29). -/
def busAction (c : BusCmd) (held : Bool) (d : Nat) (sa out inn : Byte) : List BusSym :=
  match c with
  | .sendStart =>
    if held then Config.heldSendStart d sa out else [.start, .addr sa, .slaveAck, .sent out, .slaveAck]
  | .sendCont => [.sent out, .slaveAck]
  | .sendFinish => [.sent out, .slaveAck, .stop]
  | .singleReceive => [startSym held, .addr sa, .slaveAck, .received inn, .masterNack, .stop]
  | .receiveStart => [startSym held, .addr sa, .slaveAck, .received inn, .masterAck]
  | .receiveCont => [.received inn, .masterAck]
  | .receiveFinish => [.received inn, .masterNack, .stop]

/-- The bus trace of phases k, k+1, … of an operation that completes without error, the data bytes (sent or received)
given in order, from draw number `d` (40 R77, R87). -/
def phasesTrace (t : Txn) (held : Bool) (d : Nat) : List Byte → List BusSym
  | [] => []
  | b :: bs =>
    busAction (dueCmd t) held d (targetByte t.dev (dueCmd t).rs) b b
      ++ phasesTrace { t with k := t.k + 1 } (dueCmd t).heldAfter (d + 1) bs

/-- The bus trace of an operation on `data` that completes without error, `held` being BC_HELD before it (40 R86, R87). -/
def opTrace (op : EngOp) (dev : BitVec 7) (reg : Byte) (held : Bool) (d : Nat) (data : List Byte) : List BusSym :=
  phasesTrace ⟨op, dev, reg, data.length, 0, .issue⟩ held d (reg :: data)

/-- What the command in flight puts on the bus if it completes now without error and with byte `inn` (40 R86); nothing
where there is none or no BusIssue has been made. How a BURST_SEND_START on a held bus is treated is a draw each time: it
goes by State.draws, which every completion advances, so two such commands of one run take two draws, alike or not, even
with equal bytes. Two states with equal counts, which no run has at two completions, get the same symbols for equal bytes:
the model's choice (logs 26, 29). -/
def wireAction (inn : Byte) (s : State) : List BusSym :=
  match s.busInFlight, s.bcSa, s.bcDrOut with
  | some c, some sa, some out => busAction c s.bcHeld s.draws sa out inn
  | _, _, _ => []

end Sys2Proof.Machine
end

