-- ==== Sys2Proof/Machine/Kalman.lean ====
section
/-! DEFINITION. The estimator: measurements, prediction and correction of one axis (42_kalman.md). -/

namespace Sys2Proof.Machine

/-- The measurements z1[a] and z2[a] of the three axes (42 R102). -/
structure Meas where
  z1 : PerAxis F32
  z2 : PerAxis F32
deriving DecidableEq, Repr

/-- z2[a] <- SV_GYR[GYRO_AXIS(a)] * GYRO_SENS, one multiply (42 R102). -/
def gyroRate (s : State) (a : Axis) : F32 :=
  fmul (s.sv.gyr.get (s.params.gyroAxis.get a)) s.params.gyroSens

/-- The six measurements, taken before any filter step from the state at the start of the tick (20 R53, 42 R100, R102). -/
def measurements (s : State) : Meas where
  z1 :=
    ⟨Config.measRoll s.sv.acc.x s.sv.acc.y s.sv.acc.z,
      Config.measPitch s.sv.acc.x s.sv.acc.y s.sv.acc.z,
      Config.measYaw s.sv.mag s.sv.acc s.kf.roll.x0 s.kf.pitch.x0⟩
  z2 := ⟨gyroRate s .roll, gyroRate s .pitch, gyroRate s .yaw⟩

/-- A row of P or AP minus another times DT: `p + DT*(q - r)` (42 R103). -/
def addDt (p q r : F32) : F32 := fadd p (fmul constDt (fsub q r))

/-- KF_PREDICT (42 R103): pred_x and predP. -/
def kfPredict (k : Kf) : Kf :=
  let ap0 := addDt k.p00 k.p10 k.p20
  let ap1 := addDt k.p01 k.p11 k.p21
  let ap2 := addDt k.p02 k.p12 k.p22
  { x0 := fadd k.x0 (fmul (fsub k.x1 k.x2) constDt)
    x1 := k.x1
    x2 := k.x2
    p00 := fadd (addDt ap0 ap1 ap2) constQ00
    p01 := ap1
    p02 := ap2
    p10 := addDt k.p10 k.p11 k.p12
    p11 := fadd k.p11 constQ11
    p12 := k.p12
    p20 := addDt k.p20 k.p21 k.p22
    p21 := k.p21
    p22 := fadd k.p22 constQ22 }

/-- `a*b - c*d` (42 R104). -/
def mulSubMul (a b c d : F32) : F32 := fsub (fmul a b) (fmul c d)

/-- detS = S00*S11 - S01*S10 of a prediction (42 R104). -/
def detS (p : Kf) : F32 :=
  mulSubMul (fadd p.p00 constR00) (fadd p.p11 constR11) p.p01 p.p10

/-- The gains K (42 R104). -/
structure Gains where
  k00 : F32
  k01 : F32
  k10 : F32
  k11 : F32
  k20 : F32
  k21 : F32
deriving DecidableEq, Repr

/-- The gains of a prediction (42 R104). -/
def gains (p : Kf) : Gains :=
  let s00 := fadd p.p00 constR00
  let s01 := p.p01
  let s10 := p.p10
  let s11 := fadd p.p11 constR11
  let d := detS p
  { k00 := fdiv (mulSubMul p.p00 s11 p.p01 s10) d
    k01 := fdiv (mulSubMul p.p01 s00 p.p00 s01) d
    k10 := fdiv (mulSubMul p.p10 s11 p.p11 s10) d
    k11 := fdiv (mulSubMul p.p11 s00 p.p10 s01) d
    k20 := fdiv (mulSubMul p.p20 s11 p.p21 s10) d
    k21 := fdiv (mulSubMul p.p21 s00 p.p20 s01) d }

/-- `p + K*u + K'*v`, grouped from the left (42 R104). -/
def addTwo (p k u k' v : F32) : F32 := fadd (fadd p (fmul k u)) (fmul k' v)

/-- `q - K*r - K'*s`, grouped from the left (42 R104). -/
def subTwo (q k r k' s : F32) : F32 := fsub (fsub q (fmul k r)) (fmul k' s)

/-- `(1-K)*p - K'*q`, the subtraction from 1.0 first (42 R104). -/
def mixRow (k p k' q : F32) : F32 := fsub (fmul (fsub f32One k) p) (fmul k' q)

/-- KF_CORRECT (42 R104). The row P10, P11, P12 uses K11 in both places (42 R105). -/
def kfCorrect (p : Kf) (z1 z2 : F32) : Kf :=
  let g := gains p
  let i1 := fsub z1 p.x0
  let i2 := fsub z2 p.x1
  { x0 := addTwo p.x0 g.k00 i1 g.k01 i2
    x1 := addTwo p.x1 g.k10 i1 g.k11 i2
    x2 := addTwo p.x2 g.k20 i1 g.k21 i2
    p00 := mixRow g.k00 p.p00 g.k01 p.p10
    p01 := mixRow g.k00 p.p01 g.k01 p.p11
    p02 := mixRow g.k00 p.p02 g.k01 p.p12
    p10 := mixRow g.k11 p.p10 g.k11 p.p00
    p11 := mixRow g.k11 p.p11 g.k11 p.p01
    p12 := mixRow g.k11 p.p12 g.k11 p.p02
    p20 := subTwo p.p20 g.k20 p.p00 g.k21 p.p10
    p21 := subTwo p.p21 g.k20 p.p01 g.k21 p.p11
    p22 := subTwo p.p22 g.k20 p.p02 g.k21 p.p12 }

/-- KF_STEP (42 R106). -/
def kfStep (k : Kf) (z1 z2 : F32) : Kf := kfCorrect (kfPredict k) z1 z2

end Sys2Proof.Machine
end

