-- ==== Sys2Proof/Machine/Control.lean ====
section
/-! DEFINITION. CONTROL: the control tick, the controller, the mixer, the clamp and the width map, and the HOST's two
register writes (43_control_mapper.md). -/

namespace Sys2Proof.Machine

/-- e = DESIRED - actual (43 R112). -/
def ctrlError (actual : F32) : F32 := fsub constDesired actual

/-- IERR after the tick: IERR + e, added before use (43 R112). -/
def ctrlIerr (ierr actual : F32) : F32 := fadd ierr (ctrlError actual)

/-- u = ((KP*e) + (KD*((e/DT) - (g*DT)))) + (KI*IERR), IERR the new one (43 R112). -/
def ctrlTerm (ierr actual g : F32) : F32 :=
  let e := ctrlError actual
  fadd (fadd (fmul constKp e) (fmul constKd (fsub (fdiv e constDt) (fmul g constDt))))
    (fmul constKi (ctrlIerr ierr actual))

/-- Mix(T, r, p, mix) (43 R113). -/
def mixMotors (t r p : F32) (mix : Bool) : Motors F32 :=
  if mix then
    { m0 := fadd t (fadd (fneg p) r)
      m1 := fadd t (fadd p r)
      m2 := fadd t (fsub (fneg p) r)
      m3 := fadd t (fsub p r) }
  else ⟨t, t, t, t⟩

/-- Clamp(t) (43 R114): NaN and t < 0 give +0.0, t > 100 gives 100.0, any other value passes. -/
def clamp (t : F32) : F32 :=
  match t with
  | .nan => f32Zero
  | .num s m =>
    if flt (.num s m) constClampLo then f32Zero
    else if flt constClampHi (.num s m) then constClampHi
    else .num s m

/-- Width(c) (43 R115): B + ((B * c) / 100.0), truncated. -/
def width (base : Nat) (c : F32) : Word :=
  let b := i2f (base : Int)
  f2uTrunc (fadd b (fdiv (fmul b c) constMapDiv))

/-- The same function of every motor. -/
def Motors.map {α β : Type} (f : α → β) (m : Motors α) : Motors β :=
  ⟨f m.m0, f m.m1, f m.m2, f m.m3⟩

/-- The same function of every axis of three families. -/
def PerAxis.zip3 {α β γ δ : Type} (f : α → β → γ → δ) (a : PerAxis α) (b : PerAxis β) (c : PerAxis γ) : PerAxis δ :=
  ⟨f a.roll b.roll c.roll, f a.pitch b.pitch c.pitch, f a.yaw b.yaw c.yaw⟩

/-- The filters after the tick (42 R106). -/
def tickKf (z : Meas) (s : State) : PerAxis Kf := PerAxis.zip3 kfStep s.kf z.z1 z.z2

/-- The integral accumulators after the tick (43 R112). -/
def tickIerr (z : Meas) (s : State) : PerAxis F32 :=
  let k := tickKf z s
  ⟨ctrlIerr s.ierr.roll k.roll.x0, ctrlIerr s.ierr.pitch k.pitch.x0, ctrlIerr s.ierr.yaw k.yaw.x0⟩

/-- The correction terms u[ROLL], u[PITCH], u[YAW]; no motor uses u[YAW] (43 R112, R113). -/
def tickTerms (z : Meas) (s : State) : PerAxis F32 :=
  let k := tickKf z s
  ⟨ctrlTerm s.ierr.roll k.roll.x0 z.z2.roll, ctrlTerm s.ierr.pitch k.pitch.x0 z.z2.pitch,
    ctrlTerm s.ierr.yaw k.yaw.x0 z.z2.yaw⟩

/-- TVEC after the tick (43 R113, R114). -/
def tickTvec (z : Meas) (s : State) : Motors F32 :=
  let u := tickTerms z s
  (mixMotors (torqueF32 s.torque) u.roll u.pitch (cfgMixEn s.cfg)).map clamp

/-- PWM_WIDTH after the tick (43 R115, R116). -/
def tickWidth (z : Meas) (s : State) : Motors Word :=
  (tickTvec z s).map (width s.params.pwmBase)

/-- A control tick on given measurements: KF, IERR, TVEC and PWM_WIDTH in one step (20 R47, 43 R111). -/
def controlTickWith (z : Meas) (s : State) : State :=
  { s with
    kf := tickKf z s
    ierr := tickIerr z s
    tvec := some (tickTvec z s)
    pwmWidth := some (tickWidth z s) }

/-- TICK_C: one atomic control tick; it never holds and raises nothing (43 R111). -/
def execTickC (s : State) : Result := .next (controlTickWith (measurements s) s)

/-- TORQ: TORQUE <- OPERAND, every i32 accepted (43 R117). -/
def execTorq (v : Word) (s : State) : Result := .next { s with torque := v }

/-- CFG: CFG.MIX_EN <- OPERAND[0], bits 31:1 ignored (43 R118). -/
def execCfg (v : Word) (s : State) : Result := .next { s with cfg := cfgOperand v }

end Sys2Proof.Machine
end

