-- ==== Sys2Proof/Machine/Sampler.lean ====
section
/-! DEFINITION. The SAMPLER: SAMPLE_TICK, the boot sequence, the scheduler, the decode of a sample and the smoothing
(41_sampling.md). -/

namespace Sys2Proof.Machine

/-- TICK_S: SMP_PEND <- 1; a tick while it is set is absorbed (41 R92). -/
def execTickS (s : State) : Result := .next { s with smpPend := true }

/-- SCHED's successor function (41 R93). -/
def Sensor.succ : Sensor → Sensor
  | .acc => .gyr
  | .gyr => .mag
  | .mag => .acc

/-- The request word of INIT s (30 R70, 41 R88). -/
def initWord (p : Params) (q : Sensor) : Word :=
  reqWord (p.initVal.get q) (p.initReg.get q) (p.dev.get q) 0b01#2

/-- The request word of READXYZ s: a READ_BURST of 6 bytes (30 R70, 41 R89). -/
def readWord (p : Params) (q : Sensor) : Word :=
  reqWord 0x06#8 (p.regOut.get q) (p.dev.get q) 0b10#2

/-- SMP_SEQ after the boot wait of a sensor (41 R91). -/
def bootNext : Sensor → SmpSeq
  | .acc => .boot .gyr
  | .gyr => .boot .mag
  | .mag => .idle

/-- Decode_s of six bytes (41 R90). -/
def decodeSample (o : AxisOrder) (b0 b1 b2 b3 b4 b5 : Byte) : Vec3 (BitVec 16) :=
  placeWords o (sampleWord b0 b1) (sampleWord b2 b3) (sampleWord b4 b5)

/-- RXBUF[0..5] decoded; `none` if one of the six has not been written (60 R127). -/
def sampleRaw (q : Sensor) (s : State) : Option (Vec3 (BitVec 16)) := do
  let b0 ← rxByte s.rxbuf 0 s.draws
  let b1 ← rxByte s.rxbuf 1 (s.draws + 1)
  let b2 ← rxByte s.rxbuf 2 (s.draws + 2)
  let b3 ← rxByte s.rxbuf 3 (s.draws + 3)
  let b4 ← rxByte s.rxbuf 4 (s.draws + 4)
  let b5 ← rxByte s.rxbuf 5 (s.draws + 5)
  return decodeSample (s.params.axisOrder.get q) b0 b1 b2 b3 b4 b5

/-- Smooth(v, r) = v + (i2f(r) - v) / 10.0 (41 R96). -/
def smooth (v : F32) (r : BitVec 16) : F32 :=
  fadd v (fdiv (fsub (sampleF32 r) v) constSmoothDiv)

/-- The smoothing of all three components (41 R95). -/
def smoothVec (v : Vec3 F32) (r : Vec3 (BitVec 16)) : Vec3 F32 :=
  ⟨smooth v.x r.x, smooth v.y r.y, smooth v.z r.z⟩

/-- The end of one tick's work whatever FAIL is: SCHED <- succ(s), SMP_SEQ <- IDLE (41 R95, R97). -/
def sampleEnd (q : Sensor) (s : State) : State :=
  { s with sched := q.succ, smpSeq := .idle }

/-- Sample finish (41 R95, R97). The six reads of RXBUF take six draw numbers (log 11). -/
def sampleFinish (q : Sensor) (s : State) : Result :=
  if statusFail s.engStatus then .next (sampleEnd q s)
  else match sampleRaw q s with
    | none => .fault .rxbufUnwritten
    | some raw =>
      .next (sampleEnd q { s with
        sv := s.sv.set q (smoothVec (s.sv.get q) raw)
        draws := s.draws + 6 })

/-- A request of the SAMPLER and the ENGINE's accept in one step, SMP_SEQ going to `g` (41 R91, R94). -/
def samplerRequest (run : Instr → State → Result) (w : Word) (g : SmpSeq) (s : State) : Result :=
  match submit run w s with
  | .next s' => .next { s' with smpSeq := g }
  | .fault f => .fault f
  | .refused r => .refused r

/-- The SAMPLER's step (41 R91, R94, R95, R99). A step that is held changes nothing (log 3). -/
def samplerTurn (run : Instr → State → Result) (s : State) : Result :=
  match s.smpSeq with
  | .boot q => samplerRequest run (initWord s.params q) (.bootWait q) s
  | .bootWait q => if statusDone s.engStatus then .next { s with smpSeq := bootNext q } else .next s
  | .idle =>
    if s.smpPend then
      samplerRequest run (readWord s.params s.sched) (.sampling s.sched) { s with smpPend := false }
    else .next s
  | .sampling q => if statusDone s.engStatus then sampleFinish q s else .next s

end Sys2Proof.Machine
end

