-- ==== Sys2Proof/Machine/Turns.lean ====
section
/-! DEFINITION. One turn of one agent (60_exceptions.md R120, R136): the event port, reset, the HOST's reads, BUSCTL's
and a test client's steps; and how a step picks the turn. `run` is always the execution of an instruction. -/

namespace Sys2Proof.Machine

/-- One event on the event port (30 R63, 60 R126): 0b000 is no event, a reserved code is refused. -/
def eventTurn (run : Instr → State → Result) (ev : BitVec 3) (operand : Word) (s : State) : Result :=
  match decode (.event ev operand) with
  | .ok i => run i s
  | .error .eventNone => .next s
  | .error _ => .refused .eventReserved

/-- A read that gives back one word which is no f32. -/
def readWordOut (w : Word) (s : State) : Result := .next { s with readOut := [w] }

/-- The words of a list of f32 values, the i-th with draw number d + i for a NaN's payload (log 10). -/
def f32Words (d : Nat) : List F32 → List Word
  | [] => []
  | a :: l => f32Word (Config.nanPayload d) a :: f32Words (d + 1) l

/-- A read that gives back f32 values. -/
def readF32Out (l : List F32) (s : State) : Result :=
  .next { s with readOut := f32Words s.draws l, draws := s.draws + l.length }

/-- The three components of a vector. -/
def Vec3.toList (v : Vec3 F32) : List F32 := [v.x, v.y, v.z]

/-- x[0..2], then P row by row. -/
def Kf.toList (k : Kf) : List F32 :=
  [k.x0, k.x1, k.x2, k.p00, k.p01, k.p02, k.p10, k.p11, k.p12, k.p20, k.p21, k.p22]

/-- The entries of the four motors in order. -/
def Motors.toList {α : Type} (m : Motors α) : List α := [m.m0, m.m1, m.m2, m.m3]

/-- A HOST read: the current value, and no side effect on the block (20 R48, 60 R136). How much one read gives is the
model's choice (log 32). A read of TVEC or PWM_WIDTH before the first control tick faults, as 60 R127 and 93 section 2 say. -/
def hostRead (t : ReadTarget) (s : State) : Result :=
  match t with
  | .engStatus => readWordOut (statusOut s) s
  | .engResult => readWordOut (resultOut s) s
  | .sched => readWordOut (s.sched.code.setWidth 32) s
  | .sv q => readF32Out (s.sv.get q).toList s
  | .kf a => readF32Out (s.kf.get a).toList s
  | .ierr a => readF32Out [s.ierr.get a] s
  | .torque => readWordOut s.torque s
  | .cfg => readWordOut (cfgRead s.cfg) s
  | .tvec i =>
    match s.tvec with
    | none => .fault .tvecUnwritten
    | some m => readF32Out [m.get i] s
  | .pwmWidth i =>
    match s.pwmWidth with
    | none => .fault .pwmUnwritten
    | some m => readWordOut (m.get i) s
  | .tvecAll =>
    match s.tvec with
    | none => .fault .tvecUnwritten
    | some m => readF32Out m.toList s
  | .pwmWidthAll =>
    match s.pwmWidth with
    | none => .fault .pwmUnwritten
    | some m => .next { s with readOut := m.toList }

/-- Reset is released: every element takes its reset value, BUSCTL's inputs the platform's (70 R138, R140). -/
def releaseReset (busy err : Bool) (drIn : Byte) (held : Bool) (s : State) : Result :=
  if s.resetAsserted then .next (resetBlock busy err drIn held s) else .refused .resetNotAsserted

/-- A turn of one of the five agents. While reset is asserted no agent of the block takes a step and events are ignored
(70 R138); the environment's own steps go on (log 17). Every change of BC_* by other than a completion or a release is
refused (log 35). -/
def sysTurn (run : Instr → State → Result) (t : SysTurn) (s : State) : Result :=
  match t with
  | .engine => if s.resetAsserted then .next s else engineTurn run s
  | .sampler => if s.resetAsserted then .next s else samplerTurn run s
  | .complete err byte held => busComplete err byte held s
  | .busDrive _ _ _ => .refused .busContract
  | .busRead p => busRead p s
  | .event ev operand => if s.resetAsserted then .next s else eventTurn run ev operand s
  | .twoEvents _ _ _ _ => if s.resetAsserted then .next s else .refused .twoEvents
  | .hostRead t => hostRead t s
  | .hostWrite _ _ => .refused .hostWrite
  | .assertReset => .next { s with resetAsserted := true }
  | .releaseReset busy err drIn held => releaseReset busy err drIn held s

/-- A turn of a test client; ignored while reset is asserted, like the SAMPLER's whose place it takes (log 20). -/
def clientTurn (run : Instr → State → Result) (t : ClientTurn) (s : State) : Result :=
  if s.resetAsserted then .next s
  else match t with
    | .request w => submit run w s
    | .txb j b => clientTxb j b s
    | .rxb j => clientRxb j s
    | .status => readWordOut (statusOut s) s
    | .result => readWordOut (resultOut s) s
    | .collect => clientCollect s

/-- A turn. -/
def takeTurn (run : Instr → State → Result) (t : Turn) (s : State) : Result :=
  match t with
  | .sys t => sysTurn run t s
  | .client t => clientTurn run t s

/-- The turn the next step takes: the agenda's first, or a free one (20 R51; logs 1, 2). -/
def nextTurn (s : State) : Turn :=
  match s.agenda with
  | [] => .sys (Config.freeTurn s.draws)
  | t :: _ => t

/-- The state in which the turn is taken: the turn is off the agenda, or one free value is drawn, and no BC_CMD strobe is
present any more (10 R24; log 13). -/
def beforeTurn (s : State) : State :=
  match s.agenda with
  | [] => { s with bcCmd := none, draws := s.draws + 1 }
  | _ :: rest => { s with bcCmd := none, agenda := rest }

/-- One step: the next turn, taken. -/
def stepWith (run : Instr → State → Result) (s : State) : Result :=
  takeTurn run (nextTurn s) (beforeTurn s)

/-- A transaction that is about to issue a given bus command (40 R77): what the ENGINE must be doing for the command to
be the one it issues next (log 21). -/
def txnIssuing (c : BusCmd) : Txn :=
  match c with
  | .sendStart => ⟨.readByte, 0#7, 0#8, 1, 0, .issue⟩
  | .sendCont => ⟨.writeBurst, 0#7, 0#8, 2, 1, .issue⟩
  | .sendFinish => ⟨.writeByte, 0#7, 0#8, 1, 1, .issue⟩
  | .singleReceive => ⟨.readByte, 0#7, 0#8, 1, 1, .issue⟩
  | .receiveStart => ⟨.readBurst, 0#7, 0#8, 2, 1, .issue⟩
  | .receiveCont => ⟨.readBurst, 0#7, 0#8, 3, 2, .issue⟩
  | .receiveFinish => ⟨.readBurst, 0#7, 0#8, 2, 2, .issue⟩

/-- The state in which the very next step runs what the wire carries: a request word is written by a client, an event is
presented by the HOST, and for a bus command the ENGINE is at the ISSUE of a phase that has it, its bytes written (log 21).
A key is read by the opcode table, CMD_ENC's default. -/
def placeWire (x : Wire) (s : State) : State :=
  match x with
  | .req w => { s with resetAsserted := false, agenda := .client (.request w) :: s.agenda }
  | .event ev operand => { s with resetAsserted := false, agenda := .sys (.event ev operand) :: s.agenda }
  | .cmd key =>
    match cmdOfKey CmdEnc.standard key with
    | none => s
    | some c =>
      { s with
        resetAsserted := false
        agenda := .sys .engine :: s.agenda
        engSeq := .active (txnIssuing c)
        engStatus := statusWord true false false
        engReq := some (s.engReq.getD 0#32)
        txbuf := if allWritten s.txbuf 2 then s.txbuf else memWrite (memWrite s.txbuf 0 0#8) 1 0#8 }

end Sys2Proof.Machine
end

