-- ==== Sys2Proof/Machine/Dispatch.lean ====
section
/-! DEFINITION. One arm for each row of the opcode table. -/

namespace Sys2Proof.Machine

def exec (i : Instr) (s : State) : Host.Outcome State Fault Refusal :=
  match i with
  -- requests (40_i2c_engine.md)
  | .rdb dev reg => Sys2Proof.Machine.execRdb dev reg s
  | .wrb dev reg data => Sys2Proof.Machine.execWrb dev reg data s
  | .rdn dev reg n => Sys2Proof.Machine.execRdn dev reg n s
  | .wrn dev reg n => Sys2Proof.Machine.execWrn dev reg n s
  -- bus commands (30_encoding.md R61)
  | .burstSendStart => Sys2Proof.Machine.execBurstSendStart s
  | .burstSendCont => Sys2Proof.Machine.execBurstSendCont s
  | .burstSendFinish => Sys2Proof.Machine.execBurstSendFinish s
  | .singleReceive => Sys2Proof.Machine.execSingleReceive s
  | .burstReceiveStart => Sys2Proof.Machine.execBurstReceiveStart s
  | .burstReceiveCont => Sys2Proof.Machine.execBurstReceiveCont s
  | .burstReceiveFinish => Sys2Proof.Machine.execBurstReceiveFinish s
  -- events (30_encoding.md R63)
  | .tickS => Sys2Proof.Machine.execTickS s
  | .tickC => Sys2Proof.Machine.execTickC s
  | .torq v => Sys2Proof.Machine.execTorq v s
  | .cfg v => Sys2Proof.Machine.execCfg v s

end Sys2Proof.Machine
end

