-- ==== Sys2Proof/Machine/Step.lean ====
section
/-! DEFINITION. One step of the machine, and how a given instruction is made the next one. -/

namespace Sys2Proof.Machine

/-- One step: the next turn of State.agenda, or a free one, is taken (20 R51, 60 R120). -/
def step (s : State) : Host.Outcome State Fault Refusal := stepWith exec s

/-- `s` with the instruction of a table row's bits as what the very next step runs. -/
def State.withFetchWord (s : State) (nbits w : Nat) : State := placeWire (wireOfTable nbits w) s

end Sys2Proof.Machine
end

