-- ==== Sys2Proof/Safety.lean ====
section
/-! DEFINITION. What counts as a safe run: the marks of a run (60_exceptions.md R126, R127), its end
(70_reset_and_hazards.md R146), who is enabled (60 R121), a stuck bus (70 R141), and the invariants claims use. -/

namespace Sys2Proof.Machine

/-- A step with its marks: a refused input changes no state of the block and sets the REFUSED mark, a fault sets the FAULT
mark (60 R126, R127), and a release of reset clears both (70 R139; log 4). That a faulted step leaves everything besides the
mark as it was is the model's choice (log 34). -/
def record (s : State) : State :=
  match step s with
  | .next t => t
  | .refused r => { beforeTurn s with refusedMark := s.refusedMark.or (some r) }
  | .fault f => { beforeTurn s with faultMark := s.faultMark.or (some f) }

/-- A run so far: its state, and the marks of the whole run, which nothing clears, a reset in the middle of it neither
(60 R126 "kept for the rest of the run", R127 "never cleared"; log 4). -/
structure RunSoFar where
  state : State
  refused : Option Refusal
  fault : Option Fault
deriving DecidableEq, Repr

/-- A run that begins in a state. -/
def RunSoFar.start (s : State) : RunSoFar := ⟨s, s.refusedMark, s.faultMark⟩

/-- A run one step later. -/
def RunSoFar.next (r : RunSoFar) : RunSoFar where
  state := record r.state
  refused := r.refused.or (record r.state).refusedMark
  fault := r.fault.or (record r.state).faultMark

/-- The turn presents an event: a code other than 0b000 on the event port (30 R63). Reset is no event (70 R138). -/
def Turn.isEvent : Turn → Bool
  | .sys (.event ev _) => decide (ev ≠ 0b000#3)
  | .sys (.twoEvents _ _ _ _) => true
  | .sys _ => false
  | .client _ => false

/-- No event is left on the agenda: of the events the run was given, the HOST's last is over (70 R146; log 36). -/
def State.eventsOver (s : State) : Bool := s.agenda.all (fun u => !u.isEvent)

/-- The conditions 1 to 4 for the end of a run (70 R146). -/
def State.quiet (s : State) : Bool :=
  decide (s.engSeq = .idle) && decide (s.smpSeq = .idle) && !s.smpPend && !s.bcBusy

/-- The run has ended: the HOST's last event is over, and conditions 1 to 5 hold, no mark among them (70 R146). -/
def RunSoFar.ended (r : RunSoFar) : Bool :=
  r.state.eventsOver && r.state.quiet && r.refused.isNone && r.fault.isNone

/-- The result of a run (70 R146). -/
structure RunResult where
  sv : PerSensor (Vec3 F32)
  sched : Sensor
  kf : PerAxis Kf
  ierr : PerAxis F32
  tvec : Option (Motors F32)
  pwmWidth : Option (Motors Word)
  engStatus : Byte
  engResult : Byte
deriving DecidableEq, Repr

/-- What a run that has ended resulted in; one that has not has no result (70 R146). -/
def RunSoFar.result (r : RunSoFar) : Option RunResult :=
  if r.ended then
    some ⟨r.state.sv, r.state.sched, r.state.kf, r.state.ierr, r.state.tvec, r.state.pwmWidth, r.state.engStatus,
      r.state.engResult⟩
  else none

/-- A run without end, given by its points: each is one step after the one before. -/
def IsRun (run : Nat → RunSoFar) : Prop := ∀ i, run (i + 1) = (run i).next

/-- At point `i` of a run the HOST's last event is over: no step from there on presents one (70 R146). -/
def EventsOverAt (run : Nat → RunSoFar) (i : Nat) : Prop := ∀ j, i ≤ j → (nextTurn (run j).state).isEvent = false

/-- The run ends at point `i` (70 R146). -/
def EndsAt (run : Nat → RunSoFar) (i : Nat) : Prop := EventsOverAt run i ∧ (run i).ended = true

/-- The run is a hang: it never meets conditions 1 to 4 after the HOST's last event, and from some point on it meets them
no more, whether its events come to an end or not (70 R141, R146; log 36). -/
def Hangs (run : Nat → RunSoFar) : Prop :=
  (∀ i, EventsOverAt run i → (run i).state.quiet = false) ∧ ∃ i, ∀ j, i ≤ j → (run j).state.quiet = false

/-- The ENGINE has an enabled step (40 R76). -/
def engineEnabled (s : State) : Bool :=
  !s.resetAsserted && match s.engSeq with
  | .idle => false
  | .active t =>
    match t.stage with
    | .preWait => !s.bcBusy
    | .issue => true
    | .postWait => !s.bcBusy

/-- The SAMPLER has an enabled step (41 R91, R94, R95, R99). -/
def samplerEnabled (s : State) : Bool :=
  !s.resetAsserted && match s.smpSeq with
  | .boot _ => true
  | .bootWait _ => statusDone s.engStatus
  | .idle => s.smpPend
  | .sampling _ => statusDone s.engStatus

/-- A run, given as its states, in which a step of the ENGINE or of the SAMPLER that stays enabled is eventually taken
(60 R121; log 22). -/
def WeaklyFair (run : Nat → State) : Prop :=
  (∀ i, (∀ j, i ≤ j → engineEnabled (run j) = true) → ∃ j, i ≤ j ∧ nextTurn (run j) = .sys .engine) ∧
  (∀ i, (∀ j, i ≤ j → samplerEnabled (run j) = true) → ∃ j, i ≤ j ∧ nextTurn (run j) = .sys .sampler)

/-- The ENGINE waits for a command BUSCTL has not completed (70 R141). -/
def engineWaiting (s : State) : Bool :=
  s.bcBusy && match s.engSeq with
  | .idle => false
  | .active t => decide (t.stage = .preWait) || decide (t.stage = .postWait)

/-- A torque in [0, 100] (43 R114). -/
def torqueInRange (c : F32) : Bool :=
  match c with
  | .nan => false
  | .num s m => !(flt (.num s m) constClampLo) && !(flt constClampHi (.num s m))

/-- The buffers are canonical and hold only entries below NMAX (10 R23). -/
def BuffersOk (s : State) : Prop :=
  memRising s.rxbuf ∧ Memory.wf s.txbuf ∧
    (∀ e ∈ s.rxbuf, e.1 < s.params.nmax) ∧ (∀ e ∈ s.txbuf, e.1 < s.params.nmax)

/-- A transaction within the bounds of 10 R19; a byte operation has one data byte (40 R73). -/
def TxnOk (nmax : Nat) (t : Txn) : Prop :=
  1 ≤ t.n ∧ t.n ≤ nmax ∧ t.k ≤ t.n ∧ (t.op = .readByte ∨ t.op = .writeByte → t.n = 1)

/-- ENG_SEQ and ENG_STATUS agree, and what the ENGINE will send is there: 0x01 while active, and 0x00, 0x02 or 0x06 while
idle (10 R19, R21; 95 section 3.2). -/
def EngineOk (s : State) : Prop :=
  match s.engSeq with
  | .idle => s.engStatus = 0x00#8 ∨ s.engStatus = 0x02#8 ∨ s.engStatus = 0x06#8
  | .active t =>
    s.engStatus = 0x01#8 ∧ TxnOk s.params.nmax t ∧ s.engReq.isSome = true ∧
      (t.op = .writeBurst → allWritten s.txbuf t.n = true)

/-- CFG's reserved bits are 0 (10 R35). -/
def CfgOk (s : State) : Prop := s.cfg = 0#32 ∨ s.cfg = 1#32

/-- TVEC is in [0, 100] and PWM_WIDTH is the width of it, or neither has been written (43 R114, R116). -/
def OutputsOk (s : State) : Prop :=
  match s.tvec with
  | none => s.pwmWidth = none
  | some m =>
    (torqueInRange m.m0 = true ∧ torqueInRange m.m1 = true ∧ torqueInRange m.m2 = true ∧ torqueInRange m.m3 = true) ∧
      s.pwmWidth = some (m.map (width s.params.pwmBase))

/-- The invariant of the block that any run keeps. -/
def BlockOk (s : State) : Prop := BuffersOk s ∧ EngineOk s ∧ CfgOk s ∧ OutputsOk s

/-- RXBUF[0..n-1] hold received bytes. -/
def RxBytes (m : RxBuf) (n : Nat) : Prop := ∀ j, j < n → ∃ b, memRead m j = some (.byte b)

/-- SMP_SEQ and ENG_SEQ agree when the SAMPLER is the ENGINE's only client: the ENGINE is idle unless the SAMPLER waits for
a request of its own, and a sample that has not failed is in RXBUF (41 R91, R94, R95). -/
def SamplerOk (s : State) : Prop :=
  match s.smpSeq with
  | .boot _ => s.engSeq = .idle
  | .bootWait _ =>
    (match s.engSeq with
      | .idle => statusDone s.engStatus = true
      | .active t => t.op = .writeByte)
  | .idle => s.engSeq = .idle
  | .sampling _ =>
    (match s.engSeq with
      | .idle => statusDone s.engStatus = true ∧ (statusFail s.engStatus = false → RxBytes s.rxbuf 6)
      | .active t => t.op = .readBurst ∧ t.n = 6 ∧ RxBytes s.rxbuf (t.k - 1))

/-- The next turn is one of the five agents', not a test client's. -/
def noClient (s : State) : Bool :=
  match nextTurn s with
  | .sys _ => true
  | .client _ => false

/-- The bus commands issued in the next `k` steps, in order: BC_SA, BC_DR_OUT and the strobe of each BusIssue (10 R24,
00 R11). -/
def busLog : Nat → State → List (Option Byte × Option Byte × BitVec 4)
  | 0, _ => []
  | k + 1, s =>
    match step s with
    | .next t => (match t.bcCmd with | some c => [(t.bcSa, t.bcDrOut, c)] | none => []) ++ busLog k t
    | .fault _ => []
    | .refused _ => []

/-- The turns of one phase whose command completes: PRE_WAIT, ISSUE, BUSCTL's completion, POST_WAIT (40 R76, R86). -/
def phaseTurns (err : Bool) (b : Byte) (held : Bool) : List Turn :=
  [.sys .engine, .sys .engine, .sys (.complete err b held), .sys .engine]

/-- The turns of an operation that succeeds: the client's request and then every phase, BUSCTL answering the i-th phase
with the i-th byte (40 R76). -/
def okTurns (w : Word) (bytes : List Byte) : List Turn :=
  .client (.request w) :: bytes.flatMap (fun b => phaseTurns false b false)

/-- The covariance of two filters is the same. -/
def SameCov (a b : Kf) : Prop :=
  a.p00 = b.p00 ∧ a.p01 = b.p01 ∧ a.p02 = b.p02 ∧ a.p10 = b.p10 ∧ a.p11 = b.p11 ∧ a.p12 = b.p12 ∧
    a.p20 = b.p20 ∧ a.p21 = b.p21 ∧ a.p22 = b.p22

/-- A smoothed component: finite, and no larger than the largest sample (41 R95). -/
def svBounded (v : F32) : Bool :=
  match v with
  | .nan => false
  | .num _ m => decide (m.val ≤ 0x47000000)

/-- Every component of every smoothed vector is bounded by the largest sample (41 R95). -/
def SvOk (s : State) : Prop :=
  ∀ q c, svBounded ((s.sv.get q).get c) = true

/-- The SAMPLER waits for an ENGINE that waits for a command BUSCTL does not complete (70 R141). -/
def stuckBus (s : State) : Bool :=
  engineWaiting s && decide (s.engStatus = 0x01#8) && match s.smpSeq with
  | .boot _ => false
  | .bootWait _ => true
  | .idle => false
  | .sampling _ => true

end Sys2Proof.Machine
end

