-- ==== Sys2Proof/Certificates/Slice0/Obligations.lean ====
section
/-! DEFINITION. The statements for the provers. Each docstring names the rule of spec/ it formalises. A conclusion of the
form `… = .next { s with … }` gives the whole next state: every field that is not named is unchanged. -/

open Sys2Proof Sys2Proof.Machine

/-! ## Encoding (30_encoding.md) -/

/-- The example words of 95 section 3.1 decode to the instructions they stand for, and CMD_ENC's default holds the codes of
30 R61's table (30 R60, R61, R63; 92 D3). -/
def Obligations.ExampleWordsDecode : Prop :=
  decode (.req 0x00756800#32) = .ok (.rdb 0x68#7 0x75#8) ∧
  decode (.req 0x006B6801#32) = .ok (.wrb 0x68#7 0x6B#8 0x00#8) ∧
  decode (.req 0x043B6802#32) = .ok (.rdn 0x68#7 0x3B#8 4#8) ∧
  decode (.req 0x06FF7F02#32) = .ok (.rdn 0x7F#7 0xFF#8 6#8) ∧
  decode (.req 0x02001E03#32) = .ok (.wrn 0x1E#7 0x00#8 2#8) ∧
  decode (.req 0x00756804#32) = .error .reqReserved ∧
  decode (.req 0x0075E800#32) = .error .reqReserved ∧
  decode (.req 0x01756800#32) = .error .reqArg ∧
  decode (.cmd 0b10101#5) = .ok .burstReceiveFinish ∧
  decode (.cmd 0b00101#5) = .ok .burstSendFinish ∧
  decode (.event 0b001#3 0#32) = .ok .tickS ∧
  decode (.event 0b010#3 7#32) = .ok .tickC ∧
  decode (.event 0b011#3 0xFFFFFFFB#32) = .ok (.torq (BitVec.ofInt 32 (-5))) ∧
  decode (.event 0b101#3 0#32) = .error .eventReserved ∧
  CmdEnc.standard = ⟨0x3#4, 0x1#4, 0x5#4, 0x7#4, 0xB#4, 0x9#4, 0x5#4⟩

/-- Every instruction, with every operand, is what the decoder reads from its encoding, under every legal CMD_ENC, the
default among them (30 R60, R61, R63, R66; legality of a CMD_ENC: log 8). -/
def Obligations.DecodeOfEncode : Prop :=
  (∀ i : Instr, decode (encode i) = .ok i) ∧
  ∀ e : CmdEnc, e.legal = true → ∀ i : Instr, decodeWith e (encodeWith e i) = .ok i

/-- Where a request word decodes, encoding gives the word back: no two words carry one request; and the word is
ARG·2^24 + REG·2^16 + DEV·2^8 + OP, each field where the table of 30 R60 puts it (30 R60, R66, R68). -/
def Obligations.RequestWordsHaveOneReading : Prop :=
  (∀ (w : Word) (i : Instr), decode (.req w) = .ok i → encode i = .req w) ∧
  ∀ (arg reg : Byte) (dev : BitVec 7) (op : BitVec 2),
    (reqWord arg reg dev op).toNat = arg.toNat * 2 ^ 24 + reg.toNat * 2 ^ 16 + dev.toNat * 2 ^ 8 + op.toNat

/-- A request word decodes exactly when RSV0 and RSV1 are 0 and, for READ_BYTE, ARG is 0 (30 R66, R67 items 1, 2). A burst
whose count is 0 or above NMAX is illegal too (30 R60, R67 item 3) and decodes here: NMAX is no part of the word, and the
accept refuses it; that the count is left to the accept is the model's choice, log 21. A key decodes exactly when it is one
of CMD_ENC's seven (R67 item 5), and the event codes 1 to 4 decode (30 R63, R67 item 4). -/
def Obligations.WiresThatDecode : Prop :=
  (∀ w : Word, (∃ i, decode (.req w) = .ok i) ↔
    (reqRsv0 w = 0#6 ∧ reqRsv1 w = 0#1 ∧ (reqOp w = 0#2 → reqArg w = 0#8))) ∧
  (∀ (e : CmdEnc) (key : BitVec 5), (∃ i, decodeWith e (.cmd key) = .ok i) ↔ ∃ c, key = e.key c) ∧
  (∀ key : BitVec 5, (∃ i, decode (.cmd key) = .ok i) ↔
    key ∈ [0x03#5, 0x01#5, 0x05#5, 0x17#5, 0x1B#5, 0x19#5, 0x15#5]) ∧
  ∀ (ev : BitVec 3) (v : Word), (∃ i, decode (.event ev v) = .ok i) ↔ 1 ≤ ev.toNat ∧ ev.toNat ≤ 4

/-! ## A step runs the decoded instruction -/

/-- A step runs the decoded instruction, in the state `beforeTurn s`: `s` with the turn off the agenda (or one free value
drawn) and no strobe present (10 R24; logs 1, 2, 13). Reset released, a client's request word is run when the ENGINE is idle
(40 R73), an event when it is presented, EV = 0b000 changing nothing and a reserved code being refused (30 R63, R67), and
at ISSUE the ENGINE runs the bus command of the current phase, which its key under a legal CMD_ENC decodes to (30 R66, 40
R76, R77; 60 R120). -/
def Obligations.StepRunsDecodedInstruction : Prop :=
  ∀ s : State,
    (∀ u rest, s.agenda = u :: rest → nextTurn s = u ∧ beforeTurn s = { s with bcCmd := none, agenda := rest }) ∧
    (s.agenda = [] → (∃ u, nextTurn s = .sys u) ∧ beforeTurn s = { s with bcCmd := none, draws := s.draws + 1 }) ∧
    (s.resetAsserted = false →
      (∀ w i, nextTurn s = .client (.request w) → s.engSeq = .idle → decode (.req w) = .ok i →
        step s = exec i (beforeTurn s)) ∧
      (∀ ev v i, nextTurn s = .sys (.event ev v) → decode (.event ev v) = .ok i → step s = exec i (beforeTurn s)) ∧
      (∀ v, nextTurn s = .sys (.event 0b000#3 v) → step s = .next (beforeTurn s)) ∧
      (∀ ev v, nextTurn s = .sys (.event ev v) → ev ∈ [0b101#3, 0b110#3, 0b111#3] →
        step s = .refused .eventReserved) ∧
      (∀ t, nextTurn s = .sys .engine → s.engSeq = .active t → t.stage = .issue →
        step s = exec (dueCmd t).instr (beforeTurn s) ∧
        (s.params.cmdEnc.legal = true →
          decodeWith s.params.cmdEnc (.cmd (s.params.cmdEnc.key (dueCmd t))) = .ok (dueCmd t).instr)))

/-- The SAMPLER's requests run the instructions INIT s and READXYZ s stand for: WRB DEV_s, INIT_REG_s, INIT_VAL_s and RDN
DEV_s, REG_OUT_s, 6 (30 R70, 41 R88, R89), SMP_SEQ moving in the same step (41 R91, R94). -/
def Obligations.StepRunsSamplerRequest : Prop :=
  ∀ (s : State) (t : State), nextTurn s = .sys .sampler → s.resetAsserted = false → s.engSeq = .idle →
    (∀ q, s.smpSeq = .boot q →
      exec (.wrb (s.params.dev.get q) (s.params.initReg.get q) (s.params.initVal.get q)) (beforeTurn s) = .next t →
      step s = .next { t with smpSeq := .bootWait q }) ∧
    (s.smpSeq = .idle → s.smpPend = true →
      exec (.rdn (s.params.dev.get s.sched) (s.params.regOut.get s.sched) 6#8) { beforeTurn s with smpPend := false }
        = .next t →
      step s = .next { t with smpSeq := .sampling s.sched })

/-- The frame of every instruction, where exec gives a next state: no byte of RXBUF or TXBUF changes and no register but
those the instruction's rule names. The requests write ENG_REQ, ENG_STATUS and ENG_SEQ (40 R73); the bus commands ENG_SEQ and
the bus outputs with BC_BUSY (40 R76); TICK_S SMP_PEND (41 R92); TICK_C KF, IERR, TVEC and PWM_WIDTH (43 R111); TORQ TORQUE
(43 R117); CFG CFG (43 R118). -/
def Obligations.InstructionFrame : Prop :=
  ∀ (i : Instr) (s t : State), exec i s = .next t →
    let request := (∃ dev reg, i = .rdb dev reg) ∨ (∃ dev reg d, i = .wrb dev reg d) ∨
      (∃ dev reg n, i = .rdn dev reg n) ∨ (∃ dev reg n, i = .wrn dev reg n)
    let command := i ∈ [.burstSendStart, .burstSendCont, .burstSendFinish, .singleReceive, .burstReceiveStart,
      .burstReceiveCont, .burstReceiveFinish]
    (∀ j, memRead t.rxbuf j = memRead s.rxbuf j) ∧ (∀ j, memRead t.txbuf j = memRead s.txbuf j) ∧
    t.engResult = s.engResult ∧ t.bcErr = s.bcErr ∧ t.bcDrIn = s.bcDrIn ∧ t.bcHeld = s.bcHeld ∧
    t.smpSeq = s.smpSeq ∧ t.sched = s.sched ∧ t.sv = s.sv ∧ t.refusedMark = s.refusedMark ∧
    t.faultMark = s.faultMark ∧ t.resetAsserted = s.resetAsserted ∧ t.params = s.params ∧ t.agenda = s.agenda ∧
    t.draws = s.draws ∧ t.readOut = s.readOut ∧
    (¬ request → t.engReq = s.engReq ∧ t.engStatus = s.engStatus) ∧
    (¬ request → ¬ command → t.engSeq = s.engSeq) ∧
    (¬ command → t.bcSa = s.bcSa ∧ t.bcDrOut = s.bcDrOut ∧ t.bcCmd = s.bcCmd ∧ t.bcBusy = s.bcBusy ∧
      t.busInFlight = s.busInFlight) ∧
    (i ≠ .tickS → t.smpPend = s.smpPend) ∧
    (i ≠ .tickC → t.kf = s.kf ∧ t.ierr = s.ierr ∧ t.tvec = s.tvec ∧ t.pwmWidth = s.pwmWidth) ∧
    ((∀ v, i ≠ .torq v) → t.torque = s.torque) ∧
    ((∀ v, i ≠ .cfg v) → t.cfg = s.cfg)

/-! ## Requests (40_i2c_engine.md R73, R79-R82) -/

/-- The four requests are accepted by an idle ENGINE: ENG_REQ holds the word, ENG_SEQ is ACTIVE at phase 0 in PRE_WAIT,
ENG_STATUS is 0x01, and nothing else changes (40 R73, R20, 95 section 3.2). -/
def Obligations.RequestsAreAccepted : Prop :=
  ∀ (s : State) (dev : BitVec 7) (reg data n : Byte), s.engSeq = .idle →
    exec (.rdb dev reg) s = .next { s with
      engReq := some (reqWord 0#8 reg dev 0b00#2), engStatus := 0x01#8
      engSeq := .active ⟨.readByte, dev, reg, 1, 0, .preWait⟩ } ∧
    exec (.wrb dev reg data) s = .next { s with
      engReq := some (reqWord data reg dev 0b01#2), engStatus := 0x01#8
      engSeq := .active ⟨.writeByte, dev, reg, 1, 0, .preWait⟩ } ∧
    (1 ≤ n.toNat → n.toNat ≤ s.params.nmax →
      exec (.rdn dev reg n) s = .next { s with
        engReq := some (reqWord n reg dev 0b10#2), engStatus := 0x01#8
        engSeq := .active ⟨.readBurst, dev, reg, n.toNat, 0, .preWait⟩ }) ∧
    (1 ≤ n.toNat → n.toNat ≤ s.params.nmax → (∀ j, j < n.toNat → ∃ b, memRead s.txbuf j = some b) →
      exec (.wrn dev reg n) s = .next { s with
        engReq := some (reqWord n reg dev 0b11#2), engStatus := 0x01#8
        engSeq := .active ⟨.writeBurst, dev, reg, n.toNat, 0, .preWait⟩ })

/-- While the ENGINE is active a client's write of any word to ENG_REQ is refused as REQ_BUSY, legal or not; while it is
idle a word that does not decode, and a burst of 0 or of more than NMAX bytes, is refused as REQ_ILLEGAL; a WRITE_BURST of
legal count with an unwritten TXBUF entry below n faults as TXBUF_UNWRITTEN (30 R67, 40 R73, 60 R126, R127, R129). -/
def Obligations.RequestsRefusedOrFaulted : Prop :=
  ∀ (s : State) (w : Word), nextTurn s = .client (.request w) → s.resetAsserted = false →
    (∀ t, s.engSeq = .active t → step s = .refused .reqBusy) ∧
    (s.engSeq = .idle → (∀ i, decode (.req w) ≠ .ok i) → step s = .refused .reqIllegal) ∧
    (s.engSeq = .idle →
      ∀ dev reg n, decode (.req w) = .ok (.rdn dev reg n) ∨ decode (.req w) = .ok (.wrn dev reg n) →
        n.toNat = 0 ∨ s.params.nmax < n.toNat → step s = .refused .reqIllegal) ∧
    (s.engSeq = .idle →
      ∀ dev reg n, decode (.req w) = .ok (.wrn dev reg n) → 1 ≤ n.toNat → n.toNat ≤ s.params.nmax →
        ∀ j, j < n.toNat → memRead s.txbuf j = none → step s = .fault .txbufUnwritten)

/-- A client's write of TXBUF[j] happens while EBUSY = 0 and is refused as TXBUF_BUSY while EBUSY = 1; entry j then reads
as the byte and every other entry as before (10 R23, 60 R126, 70 R143). -/
def Obligations.TxbufWriteBusyAndIdle : Prop :=
  ∀ (s : State) (j : Nat) (b : Byte), nextTurn s = .client (.txb j b) → s.resetAsserted = false →
    (statusEbusy s.engStatus = true → step s = .refused .txbufBusy) ∧
    (statusEbusy s.engStatus = false → j < s.params.nmax →
      ∃ m, step s = .next { beforeTurn s with txbuf := m } ∧ memRead m j = some b ∧
        ∀ i, i ≠ j → memRead m i = memRead s.txbuf i)

/-! ## Command selection and the phases (40_i2c_engine.md R74-R78, 60_exceptions.md R123) -/

/-- RxCmd of data byte j of a read of n bytes (40 R74), and the send commands of a write of n data bytes: start for the
register address, continues, then finish (40 R75). -/
def Obligations.CommandSelection : Prop :=
  (∀ j n : Nat, 1 ≤ n → j < n →
    (n = 1 → rxCmd j n = .singleReceive) ∧
    (2 ≤ n → j = 0 → rxCmd j n = .receiveStart) ∧
    (2 ≤ n → j = n - 1 → rxCmd j n = .receiveFinish) ∧
    (3 ≤ n → 0 < j → j < n - 1 → rxCmd j n = .receiveCont)) ∧
  ∀ t : Txn, 1 ≤ t.n → (t.op = .writeByte ∨ t.op = .writeBurst) →
    (t.k = 0 → dueCmd t = .sendStart) ∧
    (1 ≤ t.k → t.k = t.n → dueCmd t = .sendFinish) ∧
    (1 ≤ t.k → t.k < t.n → dueCmd t = .sendCont)

/-- The send commands at ISSUE: BURST_SEND_START in phase 0 with the register address, BURST_SEND_CONT and
BURST_SEND_FINISH in phase k ≥ 1 of a write with TXBUF[k-1] or WRITE_BYTE's data from ENG_REQ[31:24]; target {dev, 0},
the code CMD_ENC gives the command, BC_BUSY = 1, POST_WAIT next, and nothing else changes (30 R61, R62, 40 R75, R76,
R77). -/
def Obligations.SendsIssue : Prop :=
  ∀ (s : State) (t : Txn) (b : Byte), s.engSeq = .active t → t.stage = .issue →
    (t.k = 0 →
      exec .burstSendStart s = .next { s with
        bcSa := some (t.dev ++ 0#1), bcDrOut := some t.reg, bcCmd := some s.params.cmdEnc.sendStart, bcBusy := true
        busInFlight := some .sendStart, engSeq := .active { t with stage := .postWait } }) ∧
    (t.op = .writeBurst → 1 ≤ t.k → t.k < t.n → memRead s.txbuf (t.k - 1) = some b →
      exec .burstSendCont s = .next { s with
        bcSa := some (t.dev ++ 0#1), bcDrOut := some b, bcCmd := some s.params.cmdEnc.sendCont, bcBusy := true
        busInFlight := some .sendCont, engSeq := .active { t with stage := .postWait } }) ∧
    (t.op = .writeBurst → 1 ≤ t.k → t.k = t.n → memRead s.txbuf (t.k - 1) = some b →
      exec .burstSendFinish s = .next { s with
        bcSa := some (t.dev ++ 0#1), bcDrOut := some b, bcCmd := some s.params.cmdEnc.sendFinish, bcBusy := true
        busInFlight := some .sendFinish, engSeq := .active { t with stage := .postWait } }) ∧
    (∀ w, t.op = .writeByte → 1 ≤ t.k → t.k = t.n → s.engReq = some w →
      exec .burstSendFinish s = .next { s with
        bcSa := some (t.dev ++ 0#1), bcDrOut := some (w.extractLsb' 24 8), bcCmd := some s.params.cmdEnc.sendFinish
        bcBusy := true, busInFlight := some .sendFinish, engSeq := .active { t with stage := .postWait } })

/-- The four receive commands at the ISSUE of phase k ≥ 1 of a read: target {dev, 1}, BC_DR_OUT unchanged, the code CMD_ENC
gives the command (30 R61, R62, 40 R74, R76, R77). -/
def Obligations.ReceivesIssue : Prop :=
  ∀ (s : State) (t : Txn), s.engSeq = .active t → t.stage = .issue → 1 ≤ t.k → t.k ≤ t.n →
    (t.op = .readByte ∨ t.op = .readBurst) →
    (t.n = 1 → exec .singleReceive s = .next { s with
      bcSa := some (t.dev ++ 1#1), bcCmd := some s.params.cmdEnc.singleReceive, bcBusy := true
      busInFlight := some .singleReceive, engSeq := .active { t with stage := .postWait } }) ∧
    (2 ≤ t.n → t.k = 1 → exec .burstReceiveStart s = .next { s with
      bcSa := some (t.dev ++ 1#1), bcCmd := some s.params.cmdEnc.receiveStart, bcBusy := true
      busInFlight := some .receiveStart, engSeq := .active { t with stage := .postWait } }) ∧
    (3 ≤ t.n → 2 ≤ t.k → t.k < t.n → exec .burstReceiveCont s = .next { s with
      bcSa := some (t.dev ++ 1#1), bcCmd := some s.params.cmdEnc.receiveCont, bcBusy := true
      busInFlight := some .receiveCont, engSeq := .active { t with stage := .postWait } }) ∧
    (2 ≤ t.n → t.k = t.n → exec .burstReceiveFinish s = .next { s with
      bcSa := some (t.dev ++ 1#1), bcCmd := some s.params.cmdEnc.receiveFinish, bcBusy := true
      busInFlight := some .receiveFinish, engSeq := .active { t with stage := .postWait } })

/-- A bus command is issued only where it is the command of the phase at ISSUE (40 R76, R77): in any other state the model
refuses it (the model's choice, log 14). -/
def Obligations.OnlyTheDueCommandIsIssued : Prop :=
  ∀ (s s' : State) (c : BusCmd), exec c.instr s = .next s' →
    ∃ t, s.engSeq = .active t ∧ t.stage = .issue ∧ dueCmd t = c

/-- The ENGINE's waits: PRE_WAIT and POST_WAIT change nothing while BC_BUSY = 1, without bound and without a timeout; once
BC_BUSY = 0, PRE_WAIT goes to ISSUE (40 R76, R85). -/
def Obligations.EngineWaits : Prop :=
  ∀ (s : State) (t : Txn), nextTurn s = .sys .engine → s.resetAsserted = false → s.engSeq = .active t →
    (s.bcBusy = true → t.stage = .preWait ∨ t.stage = .postWait → step s = .next (beforeTurn s)) ∧
    (s.bcBusy = false → t.stage = .preWait →
      step s = .next { beforeTurn s with engSeq := .active { t with stage := .issue } })

/-- POST_WAIT of a phase before the last, without error: a READ_BURST captures RXBUF[k-1] <- BC_DR_IN and no other entry
changes, then phase k + 1 begins (40 R76, R77). -/
def Obligations.PhaseEndsWithCapture : Prop :=
  ∀ (s : State) (t : Txn), nextTurn s = .sys .engine → s.resetAsserted = false → s.engSeq = .active t →
    t.stage = .postWait → s.bcBusy = false → s.bcErr = false → t.k < t.n →
    ∃ m, step s = .next { beforeTurn s with
        rxbuf := m, engSeq := .active { t with k := t.k + 1, stage := .preWait } } ∧
      (t.op = .readBurst → 1 ≤ t.k →
        memRead m (t.k - 1) = some (.byte s.bcDrIn) ∧ ∀ j, j ≠ t.k - 1 → memRead m j = memRead s.rxbuf j) ∧
      (t.op ≠ .readBurst ∨ t.k = 0 → m = s.rxbuf)

/-- Completion: POST_WAIT of phase n without error writes ENG_RESULT (the byte, n, or 0), ENG_STATUS = 0x02 and ENG_SEQ =
IDLE, captures the last byte of a READ_BURST, and changes nothing else (40 R78, R21, R22). -/
def Obligations.CompletionWritesResultAndStatus : Prop :=
  ∀ (s : State) (t : Txn), nextTurn s = .sys .engine → s.resetAsserted = false → s.engSeq = .active t →
    t.stage = .postWait → s.bcBusy = false → s.bcErr = false → 1 ≤ t.n → t.k = t.n →
    ∃ r m, step s = .next { beforeTurn s with engResult := r, rxbuf := m, engStatus := 0x02#8, engSeq := .idle } ∧
      (t.op = .readByte → r = s.bcDrIn) ∧
      (t.op = .readBurst → r.toNat = t.n % 256) ∧
      (t.op = .writeByte ∨ t.op = .writeBurst → r = 0x00#8) ∧
      (t.op = .readBurst → memRead m (t.n - 1) = some (.byte s.bcDrIn) ∧
        ∀ j, j ≠ t.n - 1 → memRead m j = memRead s.rxbuf j) ∧
      (t.op ≠ .readBurst → m = s.rxbuf)

/-- Abort: POST_WAIT of any phase with BC_ERR = 1 writes ENG_RESULT = 0, ENG_STATUS = 0x06, ENG_SEQ = IDLE; a READ_BURST
leaves RXBUF[0..n-1] unspecified and every other entry as it was; TXBUF, BC_SA, BC_DR_OUT and all else are unchanged and no
command is issued (60 R123, 40 R85). -/
def Obligations.AbortOnBusError : Prop :=
  ∀ (s : State) (t : Txn), nextTurn s = .sys .engine → s.resetAsserted = false → s.engSeq = .active t →
    t.stage = .postWait → s.bcBusy = false → s.bcErr = true →
    ∃ m, step s = .next { beforeTurn s with engResult := 0x00#8, rxbuf := m, engStatus := 0x06#8, engSeq := .idle } ∧
      (t.op = .readBurst → ∀ j, memRead m j = if j < t.n then some .unspecified else memRead s.rxbuf j) ∧
      (t.op ≠ .readBurst → m = s.rxbuf)

/-! ## Whole operations (40_i2c_engine.md R79-R83, R87) -/

/-- READ_BYTE and WRITE_BYTE from request to completion, BUSCTL answering without error: two commands each. READ_BYTE
issues start with the register address and single-receive and ENG_RESULT is the byte received, RXBUF not written;
WRITE_BYTE issues start and finish with the data byte and ENG_RESULT is 0. ENG_STATUS is 0x02 (40 R79, R80, R83). -/
def Obligations.ByteOperationsComplete : Prop :=
  ∀ (s : State) (dev : BitVec 7) (reg data b0 b : Byte) (rest : List Turn), s.engSeq = .idle →
    s.resetAsserted = false → s.bcBusy = false →
    (s.agenda = okTurns (reqWord 0#8 reg dev 0b00#2) [b0, b] ++ rest →
      (∃ t, Host.Core.run core 9 s = .next t ∧ t.engResult = b ∧ t.engStatus = 0x02#8 ∧ t.engSeq = .idle ∧
        t.rxbuf = s.rxbuf ∧ t.agenda = rest) ∧
      busLog 9 s = [(some (dev ++ 0#1), some reg, s.params.cmdEnc.sendStart),
        (some (dev ++ 1#1), some reg, s.params.cmdEnc.singleReceive)]) ∧
    (s.agenda = okTurns (reqWord data reg dev 0b01#2) [b0, b] ++ rest →
      (∃ t, Host.Core.run core 9 s = .next t ∧ t.engResult = 0x00#8 ∧ t.engStatus = 0x02#8 ∧ t.engSeq = .idle ∧
        t.rxbuf = s.rxbuf ∧ t.agenda = rest) ∧
      busLog 9 s = [(some (dev ++ 0#1), some reg, s.params.cmdEnc.sendStart),
        (some (dev ++ 0#1), some data, s.params.cmdEnc.sendFinish)])

/-- READ_BURST of n bytes from request to completion: n + 1 commands are issued, the register address with start and then
RxCmd(j, n) for each data byte; RXBUF[0..n-1] hold the bytes in the order they were received and no other entry changes,
ENG_RESULT is n and ENG_STATUS 0x02 (20 R43, 40 R81, R83). -/
def Obligations.ReadBurstDeliversBytesInOrder : Prop :=
  ∀ (s : State) (dev : BitVec 7) (reg b0 : Byte) (bytes : List Byte) (rest : List Turn), s.engSeq = .idle →
    s.resetAsserted = false → s.bcBusy = false → 1 ≤ bytes.length → bytes.length ≤ s.params.nmax →
    s.agenda = okTurns (reqWord (BitVec.ofNat 8 bytes.length) reg dev 0b10#2) (b0 :: bytes) ++ rest →
    (∃ t, Host.Core.run core (5 + 4 * bytes.length) s = .next t ∧ t.engResult = BitVec.ofNat 8 bytes.length ∧
      t.engStatus = 0x02#8 ∧ t.engSeq = .idle ∧ t.agenda = rest ∧ t.txbuf = s.txbuf ∧
      (∀ j b, bytes[j]? = some b → memRead t.rxbuf j = some (.byte b)) ∧
      (∀ j, bytes.length ≤ j → memRead t.rxbuf j = memRead s.rxbuf j)) ∧
    busLog (5 + 4 * bytes.length) s =
      (some (dev ++ 0#1), some reg, s.params.cmdEnc.sendStart) ::
        (List.range bytes.length).map (fun j => (some (dev ++ 1#1), some reg, s.params.cmdEnc.code (rxCmd j bytes.length)))

/-- A READ_BURST of n bytes whose phases 0 to k-1 complete and whose phase k reports an error, for any k ≤ n: exactly k + 1
commands are issued, ENG_RESULT is 0, ENG_STATUS 0x06, and RXBUF[0..n-1] are unspecified, bytes that had arrived among
them (40 R81, R83, 60 R123). -/
def Obligations.AbortedReadBurstIssuesNoMore : Prop :=
  ∀ (s : State) (dev : BitVec 7) (reg n b : Byte) (held : Bool) (answers : List Byte) (rest : List Turn),
    s.engSeq = .idle → s.resetAsserted = false → s.bcBusy = false → 1 ≤ n.toNat → n.toNat ≤ s.params.nmax →
    answers.length ≤ n.toNat →
    s.agenda = okTurns (reqWord n reg dev 0b10#2) answers ++ (phaseTurns true b held ++ rest) →
    (∃ t, Host.Core.run core (5 + 4 * answers.length) s = .next t ∧ t.engResult = 0x00#8 ∧ t.engStatus = 0x06#8 ∧
      t.engSeq = .idle ∧ t.agenda = rest ∧ t.sv = s.sv ∧
      (∀ j, j < n.toNat → memRead t.rxbuf j = some .unspecified)) ∧
    (busLog (5 + 4 * answers.length) s).length = answers.length + 1

/-- WRITE_BURST of TXBUF[0..n-1] from request to completion: the register address and then the bytes in index order go to
{dev, 0}, the last with FINISH and the others with CONT; TXBUF is unchanged (20 R43, 40 R75, R82, R83). -/
def Obligations.WriteBurstSendsBytesInOrder : Prop :=
  ∀ (s : State) (dev : BitVec 7) (reg last : Byte) (init answers : List Byte) (rest : List Turn),
    s.engSeq = .idle → s.resetAsserted = false → s.bcBusy = false → init.length + 1 ≤ s.params.nmax →
    answers.length = init.length + 2 →
    (∀ j b, (init ++ [last])[j]? = some b → memRead s.txbuf j = some b) →
    s.agenda = okTurns (reqWord (BitVec.ofNat 8 (init.length + 1)) reg dev 0b11#2) answers ++ rest →
    (∃ t, Host.Core.run core (9 + 4 * init.length) s = .next t ∧ t.engResult = 0x00#8 ∧ t.engStatus = 0x02#8 ∧
      t.engSeq = .idle ∧ t.agenda = rest ∧ t.txbuf = s.txbuf) ∧
    busLog (9 + 4 * init.length) s =
      (some (dev ++ 0#1), some reg, s.params.cmdEnc.sendStart) ::
        (init.map (fun b => (some (dev ++ 0#1), some b, s.params.cmdEnc.sendCont)) ++
          [(some (dev ++ 0#1), some last, s.params.cmdEnc.sendFinish)])

/-- The bus-level trace of each operation that succeeds and finds the bus not held (40 R86, R87). The symbols rest on the
spec's general knowledge, log 29 (PRESUMED); what a BURST_SEND_START puts on a bus that is still held is left free there. -/
def Obligations.BusTraceOfOperations : Prop :=
  ∀ (dev : BitVec 7) (reg d : Byte) (init : List Byte) (draw : Nat),
    let w := BusSym.addr (dev ++ 0#1)
    let r := BusSym.addr (dev ++ 1#1)
    opTrace .readByte dev reg false draw [d] =
      [.start, w, .slaveAck, .sent reg, .slaveAck, .repStart, r, .slaveAck, .received d, .masterNack, .stop] ∧
    (1 ≤ init.length → opTrace .readBurst dev reg false draw (init ++ [d]) =
      [.start, w, .slaveAck, .sent reg, .slaveAck, .repStart, r, .slaveAck] ++
        init.flatMap (fun b => [.received b, .masterAck]) ++ [.received d, .masterNack, .stop]) ∧
    opTrace .writeByte dev reg false draw [d] =
      [.start, w, .slaveAck, .sent reg, .slaveAck, .sent d, .slaveAck, .stop] ∧
    opTrace .writeBurst dev reg false draw (init ++ [d]) =
      [.start, w, .slaveAck, .sent reg, .slaveAck] ++ init.flatMap (fun b => [.sent b, .slaveAck]) ++
        [.sent d, .slaveAck, .stop]

/-- BUSCTL's contract: with BC_BUSY = 1 it may complete, setting BC_BUSY <- 0, BC_ERR <- the draw, and BC_DR_IN <- the byte
when a receive command completes without error; with BC_BUSY = 0 a completion is refused (40 R86, 60 R136). The model's own
draw counter goes on by one (log 29). -/
def Obligations.BusCompletionContract : Prop :=
  ∀ (s : State) (err held : Bool) (b : Byte), nextTurn s = .sys (.complete err b held) →
    (s.bcBusy = false → step s = .refused .busContract) ∧
    (s.bcBusy = true → ∀ c, s.busInFlight = some c →
      ∃ h, step s = .next { beforeTurn s with
        bcBusy := false, bcErr := err, busInFlight := none, bcHeld := h, draws := (beforeTurn s).draws + 1
        bcDrIn := if c.rs = true ∧ err = false then b else s.bcDrIn })

/-- BC_ERR and BC_DR_IN change, and BC_BUSY falls, in no step but BUSCTL's completion and the release of reset (40 R86
item 4). -/
def Obligations.BusInputsChangeOnlyByCompletion : Prop :=
  ∀ s t : State, step s = .next t →
    (∃ err b held, nextTurn s = .sys (.complete err b held)) ∨
    (∃ busy err b held, nextTurn s = .sys (.releaseReset busy err b held)) ∨
    (t.bcErr = s.bcErr ∧ t.bcDrIn = s.bcDrIn ∧ (s.bcBusy = true → t.bcBusy = true))

/-! ## The SAMPLER (41_sampling.md) -/

/-- SAMPLE_TICK, the event 0b001 whatever its operand, sets SMP_PEND, whatever state the SAMPLER is in, and nothing else; a
second one has no effect (41 R92). -/
def Obligations.SampleTickSetsPending : Prop :=
  (∀ v : Word, decode (.event 0b001#3 v) = .ok .tickS) ∧
  ∀ s : State, exec .tickS s = .next { s with smpPend := true } ∧ (s.smpPend = true → exec .tickS s = .next s)

/-- The boot steps: BOOT(s) writes INIT s and waits; BOOT_WAIT(s) goes on to GYR, MAG and IDLE once DONE = 1, whatever FAIL
is, and holds until then (41 R91, R88, 60 R124). -/
def Obligations.BootSequence : Prop :=
  ∀ (s : State) (q : Sensor), nextTurn s = .sys .sampler → s.resetAsserted = false →
    (s.smpSeq = .boot q → s.engSeq = .idle →
      step s = .next { beforeTurn s with
        engReq := some (reqWord (s.params.initVal.get q) (s.params.initReg.get q) (s.params.dev.get q) 0b01#2)
        engStatus := 0x01#8
        engSeq := .active ⟨.writeByte, s.params.dev.get q, s.params.initReg.get q, 1, 0, .preWait⟩
        smpSeq := .bootWait q }) ∧
    (s.smpSeq = .bootWait .acc → statusDone s.engStatus = true →
      step s = .next { beforeTurn s with smpSeq := .boot .gyr }) ∧
    (s.smpSeq = .bootWait .gyr → statusDone s.engStatus = true →
      step s = .next { beforeTurn s with smpSeq := .boot .mag }) ∧
    (s.smpSeq = .bootWait .mag → statusDone s.engStatus = true →
      step s = .next { beforeTurn s with smpSeq := .idle }) ∧
    (s.smpSeq = .bootWait q → statusDone s.engStatus = false → step s = .next (beforeTurn s))

/-- Sample start: SMP_PEND <- 0, a READ_BURST of 6 bytes from the sensor SCHED names is accepted, SMP_SEQ <- SAMPLING; with
no pending tick the SAMPLER holds (41 R94, R99). -/
def Obligations.SampleStart : Prop :=
  ∀ s : State, nextTurn s = .sys .sampler → s.resetAsserted = false → s.smpSeq = .idle → s.engSeq = .idle →
    (s.smpPend = true →
      ∃ w : Word, w.toNat = 0x06000002 + (s.params.regOut.get s.sched).toNat * 2 ^ 16
          + (s.params.dev.get s.sched).toNat * 2 ^ 8 ∧
        step s = .next { beforeTurn s with
          smpPend := false, engReq := some w, engStatus := 0x01#8
          engSeq := .active ⟨.readBurst, s.params.dev.get s.sched, s.params.regOut.get s.sched, 6, 0, .preWait⟩
          smpSeq := .sampling s.sched }) ∧
    (s.smpPend = false → step s = .next (beforeTurn s))

/-- Sample finish with FAIL = 0 and the six bytes in RXBUF: SV_s is replaced in all three components by the smoothing of
the decoded sample, SCHED goes to succ(s), SMP_SEQ to IDLE, and the other sensors' vectors keep their values (41 R95, R96;
the draw counter is the model's own, log 11). -/
def Obligations.SampleFinishSmooths : Prop :=
  ∀ (s : State) (q : Sensor) (b0 b1 b2 b3 b4 b5 : Byte), nextTurn s = .sys .sampler → s.resetAsserted = false →
    s.smpSeq = .sampling q → statusDone s.engStatus = true → statusFail s.engStatus = false →
    memRead s.rxbuf 0 = some (.byte b0) → memRead s.rxbuf 1 = some (.byte b1) → memRead s.rxbuf 2 = some (.byte b2) →
    memRead s.rxbuf 3 = some (.byte b3) → memRead s.rxbuf 4 = some (.byte b4) → memRead s.rxbuf 5 = some (.byte b5) →
    ∃ v d, step s = .next { beforeTurn s with sv := v, sched := q.succ, smpSeq := .idle, draws := d } ∧
      (∀ c, (v.get q).get c = smooth ((s.sv.get q).get c)
        ((placeWords (s.params.axisOrder.get q) (b0 ++ b1) (b2 ++ b3) (b4 ++ b5)).get c)) ∧
      (∀ q', q' ≠ q → v.get q' = s.sv.get q')

/-- Word j of a sample is the component AXIS_ORDER_s[j]; a word is {high, low} in two's complement (30 R64, 41 R90). -/
def Obligations.SampleWordsToComponents : Prop :=
  (∀ (o : AxisOrder) (b0 b1 b2 b3 b4 b5 : Byte),
    let axes : List Comp := match o with
      | .xyz => [.x, .y, .z]
      | .xzy => [.x, .z, .y]
      | .yxz => [.y, .x, .z]
      | .yzx => [.y, .z, .x]
      | .zxy => [.z, .x, .y]
      | .zyx => [.z, .y, .x]
    axes.map (decodeSample o b0 b1 b2 b3 b4 b5).get = [b0 ++ b1, b2 ++ b3, b4 ++ b5]) ∧
  (∀ hi lo : Byte, (sampleWord hi lo).toInt = if hi.toNat < 128 then (hi.toNat * 256 + lo.toNat : Int)
    else (hi.toNat * 256 + lo.toNat : Int) - 65536)

/-- Sample finish with FAIL = 1: no component is written, RXBUF is not read, SCHED advances as on success (41 R97). -/
def Obligations.FailedSampleKeepsVector : Prop :=
  ∀ (s : State) (q : Sensor), nextTurn s = .sys .sampler → s.resetAsserted = false →
    s.smpSeq = .sampling q → statusDone s.engStatus = true → statusFail s.engStatus = true →
    step s = .next { beforeTurn s with sched := q.succ, smpSeq := .idle }

/-- SCHED's successor function, and that three advances visit every sensor and return (41 R93, R98). -/
def Obligations.SchedulerCycle : Prop :=
  Sensor.succ .acc = .gyr ∧ Sensor.succ .gyr = .mag ∧ Sensor.succ .mag = .acc ∧
    (∀ q q' : Sensor, q' = q ∨ q' = q.succ ∨ q' = q.succ.succ) ∧ ∀ q : Sensor, q.succ.succ.succ = q

/-- Every smoothed component stays finite and within the range of a sample, ±32768, in every step (41 R95 "SV_s stays
finite"). -/
def Obligations.SmoothedVectorsStayBounded : Prop :=
  ∀ s t : State, SvOk s → step s = .next t → SvOk t

/-- Only the SAMPLER writes SV_* and SCHED (and the release of reset), and of SV_* it writes only the vector of the sensor
it is sampling (10 R28, R30, 20 R47, R52). -/
def Obligations.OnlySamplerWritesVectors : Prop :=
  ∀ s t : State, step s = .next t → (∀ busy err b held, nextTurn s ≠ .sys (.releaseReset busy err b held)) →
    (nextTurn s ≠ .sys .sampler → t.sv = s.sv ∧ t.sched = s.sched ∧ t.smpSeq = s.smpSeq) ∧
    ∀ q, s.smpSeq ≠ .sampling q → t.sv.get q = s.sv.get q

/-- Ticks coalesce: SMP_PEND is set by a SAMPLE_TICK and cleared only where the SAMPLER starts a sample or reset is released
(41 R92, 70 R142). -/
def Obligations.PendingTickIsKeptUntilServed : Prop :=
  ∀ s t : State, step s = .next t → s.smpPend = true → t.smpPend = false →
    (nextTurn s = .sys .sampler ∧ s.smpSeq = .idle ∧ t.smpSeq = .sampling s.sched) ∨
    (∃ busy err b held, nextTurn s = .sys (.releaseReset busy err b held))

/-! ## The estimator (42_kalman.md) -/

/-- The worked example: one step from reset with z1 = 10, z2 = 0 gives the x of the table, with its intermediates, detS and
gains, and x is within 0.01 of [5.00, 0.025, -0.05] (42 R110). -/
def Obligations.KalmanGoldenStep : Prop :=
  let p := kfPredict Kf.reset
  let k := kfStep Kf.reset (f32OfBits 0x41200000#32) f32Zero
  k.x0 = f32OfBits 0x40A0051F#32 ∧ k.x1 = f32OfBits 0x3CCBC170#32 ∧ k.x2 = f32OfBits 0xBD4CC63E#32 ∧
  p.p00 = f32OfBits 0x447A1333#32 ∧ p.p01 = f32OfBits 0x41200000#32 ∧ p.p10 = f32OfBits 0x41200000#32 ∧
  p.p02 = f32OfBits 0xC1200000#32 ∧ p.p20 = f32OfBits 0xC1200000#32 ∧ p.p11 = f32OfBits 0x447C8000#32 ∧
  p.p22 = f32OfBits 0x447A0010#32 ∧ detS p = f32OfBits 0x4A75645C#32 ∧
  gains p = ⟨f32OfBits 0x3F000419#32, f32OfBits 0x3B230126#32, f32OfBits 0x3B230126#32, f32OfBits 0x3F00A237#32,
    f32OfBits 0xBBA3D1CB#32, f32OfBits 0x37D0A54F#32⟩ ∧
  flt (f32OfBits 0x409FAE14#32) k.x0 = true ∧ flt k.x0 (f32OfBits 0x40A051EC#32) = true ∧
  flt (f32OfBits 0x3C75C28F#32) k.x1 = true ∧ flt k.x1 (f32OfBits 0x3D0F5C29#32) = true ∧
  flt (f32OfBits 0xBD75C28F#32) k.x2 = true ∧ flt k.x2 (f32OfBits 0xBD23D70A#32) = true

/-- The row P10, P11, P12 is computed with K11 in both places, and P is not symmetric after the first step from reset (42
R104, R105). -/
def Obligations.CovarianceRowOneUsesK11 : Prop :=
  (∀ (k : Kf) (z1 z2 : F32),
    let p := kfPredict k
    let k11 := (gains p).k11
    (kfStep k z1 z2).p10 = fsub (fmul (fsub f32One k11) p.p10) (fmul k11 p.p00) ∧
    (kfStep k z1 z2).p11 = fsub (fmul (fsub f32One k11) p.p11) (fmul k11 p.p01) ∧
    (kfStep k z1 z2).p12 = fsub (fmul (fsub f32One k11) p.p12) (fmul k11 p.p02)) ∧
  (kfStep Kf.reset f32Zero f32Zero).p01 = f32OfBits 0x401F2F20#32 ∧
  (kfStep Kf.reset f32Zero f32Zero).p10 = f32OfBits 0xC3F8D34A#32

/-- P after a step depends on P before it and on nothing else: no measurement, no x, no other axis (42 R107). -/
def Obligations.CovarianceIgnoresMeasurements : Prop :=
  ∀ (k k' : Kf) (z1 z2 z1' z2' : F32), SameCov k k' → SameCov (kfStep k z1 z2) (kfStep k' z1' z2')

/-- The three axes carry the same P: every step of the machine keeps it so, from every state in which it is so, and reset
is such a state (42 R107). -/
def Obligations.AxesShareCovariance : Prop :=
  (SameCov State.reset.kf.roll State.reset.kf.pitch ∧ SameCov State.reset.kf.pitch State.reset.kf.yaw) ∧
  ∀ s t : State, SameCov s.kf.roll s.kf.pitch → SameCov s.kf.pitch s.kf.yaw → step s = .next t →
    SameCov t.kf.roll t.kf.pitch ∧ SameCov t.kf.pitch t.kf.yaw

/-- A NaN measurement makes all three components of x NaN, and an x with a NaN component is all NaN after every later step
(42 R109). -/
def Obligations.NanPoisonsTheState : Prop :=
  ∀ (k : Kf) (z1 z2 : F32), (z1 = .nan ∨ z2 = .nan ∨ k.x0 = .nan ∨ k.x1 = .nan ∨ k.x2 = .nan) →
    (kfStep k z1 z2).x0 = .nan ∧ (kfStep k z1 z2).x1 = .nan ∧ (kfStep k z1 z2).x2 = .nan

/-! ## The control tick (43_control_mapper.md) -/

/-- CONTROL_TICK completes from every state, in one step, and writes KF, IERR, TVEC and PWM_WIDTH and nothing else. z1 and
z2 are the measurements of the state at the start of the tick, SV_GYR's component GYRO_AXIS(a) times GYRO_SENS among them;
the filters step on them, IERR adds 0 - x0 of the new filter, TVEC is the clamp of T + (-p + r), T + (p + r), T + (-p - r),
T + (p - r) for T = i2f(TORQUE) and the roll and pitch terms r, p, or of T alone with MIX_EN = 0, and PWM_WIDTH its width
(42 R102, 43 R111, R112, R113, R116). -/
def Obligations.ControlTickCompletes : Prop :=
  ∀ s : State, ∃ (z1 z2 : PerAxis F32) (k : PerAxis Kf) (e : PerAxis F32) (m : Motors F32),
    exec .tickC s = .next { s with
      kf := k, ierr := e, tvec := some m, pwmWidth := some (m.map (width s.params.pwmBase)) } ∧
    z1.roll = Config.measRoll s.sv.acc.x s.sv.acc.y s.sv.acc.z ∧
    z1.pitch = Config.measPitch s.sv.acc.x s.sv.acc.y s.sv.acc.z ∧
    z1.yaw = Config.measYaw s.sv.mag s.sv.acc s.kf.roll.x0 s.kf.pitch.x0 ∧
    (∀ a, z2.get a = fmul (s.sv.gyr.get (s.params.gyroAxis.get a)) s.params.gyroSens) ∧
    (∀ a, k.get a = kfStep (s.kf.get a) (z1.get a) (z2.get a)) ∧
    (∀ a, e.get a = fadd (s.ierr.get a) (fsub f32Zero (k.get a).x0)) ∧
    (let t := i2f s.torque.toInt
     let r := ctrlTerm s.ierr.roll k.roll.x0 z2.roll
     let p := ctrlTerm s.ierr.pitch k.pitch.x0 z2.pitch
     m = if s.cfg.getLsbD 0 = true then
         ⟨clamp (fadd t (fadd (fneg p) r)), clamp (fadd t (fadd p r)), clamp (fadd t (fsub (fneg p) r)),
           clamp (fadd t (fsub p r))⟩
       else ⟨clamp t, clamp t, clamp t, clamp t⟩)

/-- A control tick computes from the snapshot of SV_ACC, SV_GYR, SV_MAG, TORQUE and CFG, its own KF and IERR and the
parameters: two states that agree on these get the same outputs (20 R53, 43 R111). -/
def Obligations.ControlTickReadsOnlySnapshot : Prop :=
  ∀ s s' t t' : State, s.sv = s'.sv → s.torque = s'.torque → cfgMixEn s.cfg = cfgMixEn s'.cfg → s.kf = s'.kf →
    s.ierr = s'.ierr → s.params = s'.params → exec .tickC s = .next t → exec .tickC s' = .next t' →
    t.kf = t'.kf ∧ t.ierr = t'.ierr ∧ t.tvec = t'.tvec ∧ t.pwmWidth = t'.pwmWidth

/-- With MIX_EN = 0, TORQUE = 50 and PWM_BASE = 1000 a tick writes TVEC = 50.0 and PWM_WIDTH = 1500 for every motor,
whatever the estimator holds and whatever it measures (43 R111's example, R113). -/
def Obligations.BroadcastTorqueTick : Prop :=
  ∀ s t : State, cfgMixEn s.cfg = false → s.torque = 50#32 → s.params.pwmBase = 1000 → exec .tickC s = .next t →
    t.tvec = some ⟨f32OfBits 0x42480000#32, f32OfBits 0x42480000#32, f32OfBits 0x42480000#32, f32OfBits 0x42480000#32⟩ ∧
    t.pwmWidth = some ⟨1500#32, 1500#32, 1500#32, 1500#32⟩

/-- Values of the rules in binary32: smoothing (41 R96, 95 section 3.3), then controller, mixer, clamp and width with
PWM_BASE = 1000 (43 R112, R113, R115, 95 section 3.5). -/
def Obligations.ArithmeticVectors : Prop :=
  smooth f32Zero (BitVec.ofInt 16 (-32768)) = f32OfBits 0xC54CCCCD#32 ∧
  smooth f32Zero (BitVec.ofInt 16 32767) = f32OfBits 0x454CCB33#32 ∧
  smooth f32Zero (BitVec.ofInt 16 100) = f32OfBits 0x41200000#32 ∧
  smooth f32Zero (BitVec.ofInt 16 256) = f32OfBits 0x41CCCCCD#32 ∧
  smooth (f32OfBits 0x42C80000#32) (BitVec.ofInt 16 100) = f32OfBits 0x42C80000#32 ∧
  smooth (f32OfBits 0x42C7FFFC#32) (BitVec.ofInt 16 100) = f32OfBits 0x42C7FFFC#32 ∧
  ctrlTerm f32Zero (f32OfBits 0x40A0051F#32) f32Zero = f32OfBits 0xC0A1C7BD#32 ∧
  ctrlIerr f32Zero (f32OfBits 0x40A0051F#32) = f32OfBits 0xC0A0051F#32 ∧
  ctrlTerm (f32OfBits 0x40000000#32) f32One f32Zero = f32OfBits 0xBF8126E9#32 ∧
  ctrlTerm f32Zero f32Zero (f32OfBits 0x42C80000#32) = f32OfBits 0xBC23D70A#32 ∧
  ctrlTerm f32Zero .nan f32Zero = .nan ∧
  (mixMotors (i2f 50) (f32OfBits 0xC0A1C7BD#32) (f32OfBits 0x40A1C7BD#32) true).map clamp =
    ⟨f32OfBits 0x421F8E11#32, f32OfBits 0x42480000#32, f32OfBits 0x42480000#32, f32OfBits 0x427071EF#32⟩ ∧
  ((mixMotors (i2f 50) (f32OfBits 0xC0A1C7BD#32) (f32OfBits 0x40A1C7BD#32) true).map clamp).map (width 1000) =
    ⟨1398#32, 1500#32, 1500#32, 1601#32⟩ ∧
  width 1000 (f32OfBits 0x42053333#32) = 1333#32 ∧ width 1 (f32OfBits 0x42C80000#32) = 2#32

/-- Clamp: the result is in [0, 100] for every input; NaN and t < 0 give +0.0, t > 100 gives 100.0, and a value in range,
-0.0 among them, is kept (43 R114). -/
def Obligations.ClampRange : Prop :=
  ∀ t : F32, torqueInRange (clamp t) = true ∧
    (t = .nan → clamp t = f32Zero) ∧
    (flt t f32Zero = true → clamp t = f32Zero) ∧
    (flt (f32OfBits 0x42C80000#32) t = true → clamp t = f32OfBits 0x42C80000#32) ∧
    (torqueInRange t = true → clamp t = t)

/-- Width of a torque in [0, 100] lies in [PWM_BASE, 2·PWM_BASE], for every PWM_BASE from 1 to 2^23 (43 R115, 10 R36). -/
def Obligations.WidthWithinBounds : Prop :=
  ∀ (base : Nat) (c : F32), 1 ≤ base → base ≤ 2 ^ 23 → torqueInRange c = true →
    base ≤ (width base c).toNat ∧ (width base c).toNat ≤ 2 * base

/-- i2f of an i32 is exact up to 2^24 in magnitude: the datum is finite and its value is the integer (43 R113, R119). -/
def Obligations.SmallTorqueConvertsExactly : Prop :=
  ∀ z : Int, z.natAbs ≤ 2 ^ 24 →
    ∃ neg m, i2f z = .num neg m ∧ m.val < infMag ∧ signedUnits neg m.val = z * 2 ^ 149

/-- TORQUE_WRITE accepts every i32 and writes TORQUE alone (43 R117, 90 C2); CFG_WRITE writes MIX_EN <- OPERAND[0] alone, and
a later read of CFG gives the bit with bits 31:1 = 0 (43 R118, 10 R35). -/
def Obligations.HostRegisterWrites : Prop :=
  ∀ (s : State) (v : Word), exec (.torq v) s = .next { s with torque := v } ∧
    ∃ c : Word, exec (.cfg v) s = .next { s with cfg := c } ∧
      c.getLsbD 0 = v.getLsbD 0 ∧ (∀ i, 1 ≤ i → c.getLsbD i = false) ∧ (cfgRead c).toNat = v.toNat % 2

/-- KF, IERR, TVEC and PWM_WIDTH change only in a CONTROL_TICK, TORQUE only in a TORQUE_WRITE, CFG only in a CFG_WRITE (and
all of them at the release of reset) (10 R16, 20 R52). -/
def Obligations.ControlStateHasOneWriter : Prop :=
  ∀ s t : State, step s = .next t → (∀ busy err b held, nextTurn s ≠ .sys (.releaseReset busy err b held)) →
    ((∀ v, nextTurn s ≠ .sys (.event 0b010#3 v)) →
      t.kf = s.kf ∧ t.ierr = s.ierr ∧ t.tvec = s.tvec ∧ t.pwmWidth = s.pwmWidth) ∧
    ((∀ v, nextTurn s ≠ .sys (.event 0b011#3 v)) → t.torque = s.torque) ∧
    ((∀ v, nextTurn s ≠ .sys (.event 0b100#3 v)) → t.cfg = s.cfg)

/-! ## Failures, refusals, reads (60_exceptions.md) -/

/-- A read before the first write faults by its name: TVEC, PWM_WIDTH, RXBUF, BC_SA and BC_DR_OUT (60 R127). What the HOST
and BUSCTL may not do is refused: a write of a block register, two events in one step (any pair of codes, the model's choice,
log 33), a change of BC_* outside a completion (60 R126, R136; also under an asserted reset, and where nothing would
change, the model's choice, log 35). -/
def Obligations.UnwrittenReadsAndForbiddenInputsStop : Prop :=
  ∀ s : State,
    (∀ r, r = .tvecAll ∨ (∃ i, r = .tvec i) → nextTurn s = .sys (.hostRead r) → s.tvec = none →
      step s = .fault .tvecUnwritten) ∧
    (∀ r, r = .pwmWidthAll ∨ (∃ i, r = .pwmWidth i) → nextTurn s = .sys (.hostRead r) → s.pwmWidth = none →
      step s = .fault .pwmUnwritten) ∧
    (∀ j, nextTurn s = .client (.rxb j) → s.resetAsserted = false → j < s.params.nmax → memRead s.rxbuf j = none →
      step s = .fault .rxbufUnwritten) ∧
    (nextTurn s = .sys (.busRead .sa) → s.bcSa = none → step s = .fault .bcUnwritten) ∧
    (nextTurn s = .sys (.busRead .drOut) → s.bcDrOut = none → step s = .fault .bcUnwritten) ∧
    (∀ r v, nextTurn s = .sys (.hostWrite r v) → step s = .refused .hostWrite) ∧
    (∀ e v e' v', nextTurn s = .sys (.twoEvents e v e' v') → s.resetAsserted = false →
      step s = .refused .twoEvents) ∧
    (∀ y e b, nextTurn s = .sys (.busDrive y e b) → step s = .refused .busContract)

/-- A HOST read gives the current value and changes nothing of the block: only the model's own readOut and draw counter. Each
of the ten read targets has its clause: an f32 is read as a word that f32OfBits takes back to it (of a NaN any such word,
log 10). How much one read gives is the model's choice, log 32. A client's reads of ENG_STATUS and ENG_RESULT
give the same values, and its collecting read waits for DONE = 1 (10 R16, R21, R22, R28, R35, 20 R48, 40 R72, 60 R136; logs
20, 25, 26, 32). -/
def Obligations.HostReadsGiveValuesWithoutSideEffect : Prop :=
  (∀ (s : State) (r : ReadTarget), nextTurn s = .sys (.hostRead r) →
    (∀ t, step s = .next t → t = { beforeTurn s with readOut := t.readOut, draws := t.draws }) ∧
    (r = .engStatus → ∃ t, step s = .next t ∧ t.readOut = [(s.engStatus &&& 7#8).setWidth 32]) ∧
    (r = .engResult → ∃ t, step s = .next t ∧ t.readOut = [s.engResult.setWidth 32]) ∧
    (r = .sched → ∃ t, step s = .next t ∧
      t.readOut = [match s.sched with | .acc => 0#32 | .gyr => 1#32 | .mag => 2#32]) ∧
    (r = .torque → ∃ t, step s = .next t ∧ t.readOut = [s.torque]) ∧
    (r = .cfg → ∃ t, step s = .next t ∧ t.readOut = [s.cfg &&& 1#32]) ∧
    (∀ q, r = .sv q → ∃ t, step s = .next t ∧
      t.readOut.map f32OfBits = [(s.sv.get q).x, (s.sv.get q).y, (s.sv.get q).z]) ∧
    (∀ a k, r = .kf a → k = s.kf.get a → ∃ t, step s = .next t ∧
      t.readOut.map f32OfBits =
        [k.x0, k.x1, k.x2, k.p00, k.p01, k.p02, k.p10, k.p11, k.p12, k.p20, k.p21, k.p22]) ∧
    (∀ a, r = .ierr a → ∃ t, step s = .next t ∧ t.readOut.map f32OfBits = [s.ierr.get a]) ∧
    (∀ a w, r = .ierr a → s.ierr.get a = f32OfBits w → s.ierr.get a ≠ .nan →
      ∃ t, step s = .next t ∧ t.readOut = [w]) ∧
    (∀ i m, r = .tvec i → s.tvec = some m → ∃ t, step s = .next t ∧ t.readOut.map f32OfBits = [m.get i]) ∧
    (∀ m, r = .tvecAll → s.tvec = some m → ∃ t, step s = .next t ∧
      t.readOut.map f32OfBits = [m.get 0, m.get 1, m.get 2, m.get 3]) ∧
    (∀ i m, r = .pwmWidth i → s.pwmWidth = some m → ∃ t, step s = .next t ∧ t.readOut = [m.get i]) ∧
    (∀ m, r = .pwmWidthAll → s.pwmWidth = some m → ∃ t, step s = .next t ∧
      t.readOut = [m.get 0, m.get 1, m.get 2, m.get 3])) ∧
  ∀ s : State, s.resetAsserted = false →
    (nextTurn s = .client .status →
      step s = .next { beforeTurn s with readOut := [(s.engStatus &&& 7#8).setWidth 32] }) ∧
    (nextTurn s = .client .result → step s = .next { beforeTurn s with readOut := [s.engResult.setWidth 32] }) ∧
    (nextTurn s = .client .collect →
      (statusDone s.engStatus = true → step s = .next { beforeTurn s with
        readOut := [(s.engStatus &&& 7#8).setWidth 32, s.engResult.setWidth 32] }) ∧
      (statusDone s.engStatus = false → step s = .next (beforeTurn s)))

/-- A refused input changes no state of the block and sets the REFUSED mark, a fault sets the FAULT mark (60 R126, R127);
that a faulted step changes nothing besides the mark is the model's choice, log 34. A run with a mark has not ended and has
no result (70 R146).
A mark of the state, once set, is kept by every step but the release of an asserted reset, which clears it (70 R139); a mark
of the run is kept for the rest of the run, past such a reset too (60 R126, R127; the two marks are the model's reading,
log 4). -/
def Obligations.MarksAreKept : Prop :=
  (∀ s : State,
    (∀ r, step s = .refused r → s.refusedMark = none → record s = { beforeTurn s with refusedMark := some r }) ∧
    (∀ f, step s = .fault f → s.faultMark = none → record s = { beforeTurn s with faultMark := some f }) ∧
    (s.resetAsserted = false ∨ (∀ busy err b held, nextTurn s ≠ .sys (.releaseReset busy err b held)) →
      (∀ r, s.refusedMark = some r → (record s).refusedMark = some r) ∧
      (∀ f, s.faultMark = some f → (record s).faultMark = some f)) ∧
    (s.resetAsserted = true → ∀ busy err b held, nextTurn s = .sys (.releaseReset busy err b held) →
      (record s).refusedMark = none ∧ (record s).faultMark = none)) ∧
  ∀ run : RunSoFar,
    run.next.state = record run.state ∧
    (∀ r, run.refused = some r → run.next.refused = some r) ∧
    (∀ f, run.fault = some f → run.next.fault = some f) ∧
    (∀ r, step run.state = .refused r → run.next.refused.isSome = true) ∧
    (∀ f, step run.state = .fault f → run.next.fault.isSome = true) ∧
    (run.refused.isSome = true ∨ run.fault.isSome = true → run.ended = false ∧ run.result = none)

/-- No step of the block itself faults or is refused: from every state that meets the block's and the SAMPLER's invariants
the ENGINE's, the SAMPLER's and every event's step answers a next state (60 R126, R127 "No reachable rule of the block
itself faults"). -/
def Obligations.BlockStepsNeverStop : Prop :=
  ∀ s : State, BlockOk s → SamplerOk s →
    (nextTurn s = .sys .engine ∨ nextTurn s = .sys .sampler ∨
      ∃ ev v, nextTurn s = .sys (.event ev v) ∧ ev ∉ [0b101#3, 0b110#3, 0b111#3]) →
    ∃ t, step s = .next t

/-! ## Reset, hazards, invariants (70_reset_and_hazards.md) -/

/-- The state after reset (70 R139). BC_ERR, BC_DR_IN and BC_HELD, which are the platform's, are not stated. CFG = 0 rests on
the default of MIX_EN_RESET that State.reset takes, log 8 (DESIGN CHOICE). -/
def Obligations.ResetValues : Prop :=
  let s := State.reset
  s.engSeq = .idle ∧ s.engReq = none ∧ s.engStatus = 0x00#8 ∧ s.engResult = 0x00#8 ∧ s.rxbuf = [] ∧ s.txbuf = [] ∧
  s.bcSa = none ∧ s.bcDrOut = none ∧ s.bcCmd = none ∧ s.bcBusy = false ∧ s.smpSeq = .boot .acc ∧ s.sched = .acc ∧
  s.smpPend = false ∧ (∀ q c, (s.sv.get q).get c = f32OfBits 0#32) ∧
  (∀ a, s.kf.get a = ⟨f32OfBits 0#32, f32OfBits 0#32, f32OfBits 0#32,
    f32OfBits 0x447A0000#32, f32OfBits 0#32, f32OfBits 0#32,
    f32OfBits 0#32, f32OfBits 0x447A0000#32, f32OfBits 0#32,
    f32OfBits 0#32, f32OfBits 0#32, f32OfBits 0x447A0000#32⟩) ∧
  (∀ a, s.ierr.get a = f32OfBits 0#32) ∧ s.torque = 0#32 ∧ s.cfg = 0#32 ∧ s.tvec = none ∧ s.pwmWidth = none ∧
  s.refusedMark = none ∧ s.faultMark = none

/-- The release of an asserted reset gives every element its reset value from any state, in the middle of a transaction
too: MIX_EN = MIX_EN_RESET, BUSCTL's inputs at the platform's values, both marks clear; and it issues no bus command. The
parameters do not change, and the model's own agenda and draw counter go on (70 R138, R139, R140; a mark of the run is kept
outside the state, log 4). -/
def Obligations.ResetReleaseRestoresResetState : Prop :=
  ∀ (s : State) (busy err held : Bool) (b : Byte), nextTurn s = .sys (.releaseReset busy err b held) →
    s.resetAsserted = true →
    step s = .next { State.reset with
      cfg := if s.params.mixEnReset then 1#32 else 0#32
      bcBusy := busy, bcErr := err, bcDrIn := b, bcHeld := held
      params := s.params
      agenda := (beforeTurn s).agenda, draws := (beforeTurn s).draws }

/-- While reset is asserted no agent of the block takes a step and events are ignored (70 R138; how the turns of an asserted
reset are read, log 17). That a test client's turn is ignored too is the model's choice, log 20 (DESIGN CHOICE). -/
def Obligations.AssertedResetFreezesTheBlock : Prop :=
  ∀ s : State, s.resetAsserted = true →
    (nextTurn s = .sys .engine ∨ nextTurn s = .sys .sampler ∨ (∃ ev v, nextTurn s = .sys (.event ev v)) ∨
      ∃ c, nextTurn s = .client c) →
    step s = .next (beforeTurn s)

/-- A stuck bus: while BUSCTL completes no command and reset is not released, every step keeps the ENGINE and the SAMPLER
where they wait, SV_* and SCHED as they are and SMP_PEND set once it is set, the run does not end, and CONTROL's tick still
completes (70 R141, R146, 60 R121). -/
def Obligations.StuckBusFreezesSampling : Prop :=
  (∀ s t : State, stuckBus s = true → step s = .next t →
    (∀ err b held, nextTurn s ≠ .sys (.complete err b held)) →
    (∀ busy err b held, nextTurn s ≠ .sys (.releaseReset busy err b held)) →
    stuckBus t = true ∧ t.engSeq = s.engSeq ∧ t.smpSeq = s.smpSeq ∧ t.sv = s.sv ∧ t.sched = s.sched ∧
      (s.smpPend = true → t.smpPend = true)) ∧
  (∀ run : RunSoFar, stuckBus run.state = true → run.state.quiet = false ∧ run.ended = false) ∧
  (∀ (s : State) (v : Word), stuckBus s = true → s.resetAsserted = false → nextTurn s = .sys (.event 0b010#3 v) →
    ∃ t, step s = .next t ∧ t.tvec.isSome = true ∧ t.pwmWidth.isSome = true)

/-- The invariant of the block: canonical buffers below NMAX, ENG_STATUS in step with ENG_SEQ, what the ENGINE will send is
there, CFG's reserved bits 0, TVEC in [0, 100] and PWM_WIDTH its width. Every step keeps it, and the parameters do not change
(10 R19, R21, R23, R33, R35, 43 R114, R116, 70 R140 item 2). -/
def Obligations.StepKeepsBlockInvariant : Prop :=
  ∀ s t : State, step s = .next t → t.params = s.params ∧ (BlockOk s → BlockOk t)

/-- The SAMPLER's invariant: with the SAMPLER the ENGINE's only client, the ENGINE is idle whenever the SAMPLER is about to
make a request, and a sample that did not fail has its six bytes in RXBUF. Every step of the five agents keeps it (41 R91,
R94, R95). -/
def Obligations.StepKeepsSamplerInvariant : Prop :=
  ∀ s t : State, BlockOk s → SamplerOk s → noClient s = true → step s = .next t → SamplerOk t

/-- Both invariants, and the bound of the smoothed vectors, hold at reset (70 R139). -/
def Obligations.ResetMeetsInvariants : Prop :=
  BlockOk State.reset ∧ SamplerOk State.reset ∧ SvOk State.reset
end

