-- ==== Sys2Proof/Laws/Codec.lean ====
section
/-! SUPPORT. The fields of a request word that was put together from them (30_encoding.md R60), and the keys of a
CMD_ENC (30 R61). -/

namespace Sys2Proof

variable (arg reg : Byte) (dev : BitVec 7) (op : BitVec 2)

@[simp] theorem reqOp_reqWord : reqOp (reqWord arg reg dev op) = op := by
  unfold reqOp reqWord
  ext i hi
  simp only [BitVec.getElem_extractLsb', BitVec.getLsbD_append]
  rw [if_pos (by omega), BitVec.getLsbD_eq_getElem (by omega)]
  congr 1
  omega

@[simp] theorem reqRsv0_reqWord : reqRsv0 (reqWord arg reg dev op) = 0#6 := by
  unfold reqRsv0 reqWord
  ext i hi
  simp only [BitVec.getElem_extractLsb', BitVec.getLsbD_append]
  rw [if_neg (by omega), if_pos (by omega)]
  simp

@[simp] theorem reqDev_reqWord : reqDev (reqWord arg reg dev op) = dev := by
  unfold reqDev reqWord
  ext i hi
  rw [BitVec.getElem_extractLsb']
  simp only [BitVec.getLsbD_append]
  rw [if_neg (by omega), if_neg (by omega), if_pos (by omega)]
  rw [BitVec.getLsbD_eq_getElem (by omega)]
  congr 1
  omega

@[simp] theorem reqRsv1_reqWord : reqRsv1 (reqWord arg reg dev op) = 0#1 := by
  unfold reqRsv1 reqWord
  ext i hi
  simp only [BitVec.getElem_extractLsb', BitVec.getLsbD_append]
  rw [if_neg (by omega), if_neg (by omega), if_neg (by omega), if_pos (by omega)]
  simp

@[simp] theorem reqReg_reqWord : reqReg (reqWord arg reg dev op) = reg := by
  unfold reqReg reqWord
  ext i hi
  simp only [BitVec.getElem_extractLsb', BitVec.getLsbD_append]
  rw [if_neg (by omega), if_neg (by omega), if_neg (by omega), if_neg (by omega), if_pos (by omega)]
  rw [BitVec.getLsbD_eq_getElem (by omega)]
  congr 1
  omega

@[simp] theorem reqArg_reqWord : reqArg (reqWord arg reg dev op) = arg := by
  unfold reqArg reqWord
  ext i hi
  simp only [BitVec.getElem_extractLsb', BitVec.getLsbD_append]
  rw [if_neg (by omega), if_neg (by omega), if_neg (by omega), if_neg (by omega), if_neg (by omega)]
  rw [BitVec.getLsbD_eq_getElem (by omega)]
  congr 1
  omega

/-- A request word is read the same way under every CMD_ENC (30 R66). -/
theorem decode_req (w : Word) : decode (.req w) = decodeReq w := rfl

/-- An event is read the same way under every CMD_ENC (30 R63). -/
theorem decode_event (ev : BitVec 3) (v : Word) : decode (.event ev v) = decodeEvent ev v := rfl

/-- rs and the code are the two parts of a key (30 R61). -/
theorem key_inj {b b' : Bool} {x y : BitVec 4} (h : BitVec.ofBool b ++ x = BitVec.ofBool b' ++ y) : b = b' ∧ x = y := by
  have hb (i : Nat) := congrArg (fun v => BitVec.getLsbD v i) h
  simp only [BitVec.getLsbD_append] at hb
  refine ⟨by simpa using hb 4, BitVec.eq_of_getLsbD_eq fun i hi => ?_⟩
  simpa [hi] using hb i

/-- Under a legal CMD_ENC no two bus commands have the same key (30 R61, R66). -/
theorem key_injective {e : Machine.CmdEnc} (h : e.legal = true) {c c' : Machine.BusCmd} (hk : e.key c = e.key c') :
    c = c' := by
  obtain ⟨hr, hc⟩ := key_inj hk
  simp only [Machine.CmdEnc.legal, Bool.and_eq_true, decide_eq_true_eq, List.nodup_cons, List.mem_cons,
    List.not_mem_nil, or_false, not_or] at h
  cases c <;> cases c' <;> simp_all [Machine.BusCmd.rs, Machine.CmdEnc.code]

/-- Under a legal CMD_ENC the key of a bus command decodes to it (30 R66). -/
theorem decodeCmd_key {e : Machine.CmdEnc} (h : e.legal = true) (c : Machine.BusCmd) :
    decodeCmd e (e.key c) = .ok c.instr := by
  have hf : cmdOfKey e (e.key c) = some c := by
    unfold cmdOfKey
    cases hx : List.find? _ _ with
    | none =>
      have := List.find?_eq_none.mp hx c (by cases c <;> simp)
      simp at this
    | some c' =>
      have hk := List.find?_some hx
      rw [key_injective h (eq_of_beq hk)]
  simp [decodeCmd, hf]

end Sys2Proof
end

