-- ==== Sys2Proof/Laws/Memory.lean ====
section
/-! SUPPORT. The engine buffers: a read after a write, the canonical form kept by every operation, and what an abort
leaves (10_state.md R23, 60_exceptions.md R123). -/

namespace Sys2Proof.Machine

variable {α : Type}

theorem memRead_eq_none_of_lt {m : List (Nat × α)} {j : Nat} (h : ∀ e ∈ m, j < e.1) : memRead m j = none := by
  induction m with
  | nil => rfl
  | cons e m ih =>
    obtain ⟨k, v⟩ := e
    have hk : j < k := h _ (List.mem_cons_self ..)
    rw [memRead, if_neg (by omega)]
    exact ih fun e he => h e (List.mem_cons_of_mem _ he)

@[simp] theorem memRead_memWrite_self (m : List (Nat × α)) (j : Nat) (v : α) :
    memRead (memWrite m j v) j = some v := by
  induction m with
  | nil => simp [memWrite, memRead]
  | cons e m ih =>
    obtain ⟨k, w⟩ := e
    unfold memWrite
    split
    · simp [memRead]
    · split
      · simp [memRead]
      · rw [memRead, if_neg (by omega), ih]

theorem memRead_memWrite_of_ne (m : List (Nat × α)) {i j : Nat} (v : α) (h : i ≠ j) :
    memRead (memWrite m j v) i = memRead m i := by
  induction m with
  | nil => simp [memWrite, memRead, Ne.symm h]
  | cons e m ih =>
    obtain ⟨k, w⟩ := e
    unfold memWrite
    split
    · rw [memRead, if_neg (Ne.symm h)]
    · split
      · rename_i h₁
        subst h₁
        rw [memRead, if_neg (Ne.symm h), memRead, if_neg (Ne.symm h)]
      · simp only [memRead, ih]

/-- Every index of a buffer after a write is the one written or was there before. -/
theorem mem_memWrite {m : List (Nat × α)} {j : Nat} {v : α} {e : Nat × α} (h : e ∈ memWrite m j v) :
    e = (j, v) ∨ e ∈ m := by
  induction m with
  | nil => simpa [memWrite] using h
  | cons e' m ih =>
    obtain ⟨k, w⟩ := e'
    unfold memWrite at h
    split at h
    · simpa using h
    · split at h
      · rcases List.mem_cons.1 h with h | h
        · exact .inl h
        · exact .inr (List.mem_cons_of_mem _ h)
      · rcases List.mem_cons.1 h with h | h
        · exact .inr (h ▸ List.mem_cons_self ..)
        · exact (ih h).imp id (List.mem_cons_of_mem _)

/-- A write keeps the canonical form. -/
theorem memWrite_rising {m : List (Nat × α)} (h : memRising m) (j : Nat) (v : α) : memRising (memWrite m j v) := by
  induction m with
  | nil => simp [memWrite, memRising]
  | cons e m ih =>
    obtain ⟨k, w⟩ := e
    obtain ⟨hk, hm⟩ := List.pairwise_cons.1 h
    unfold memWrite
    split
    · refine List.pairwise_cons.2 ⟨fun e he => ?_, h⟩
      rcases List.mem_cons.1 he with rfl | he
      · assumption
      · exact lt_trans ‹j < k› (hk e he)
    · split
      · rename_i h₁
        subst h₁
        exact List.pairwise_cons.2 ⟨hk, hm⟩
      · refine List.pairwise_cons.2 ⟨fun e he => ?_, ih hm⟩
        rcases mem_memWrite he with rfl | he
        · exact lt_of_le_of_ne (by omega) (by omega)
        · exact hk e he

/-- A write below a bound keeps all indices below it. -/
theorem memWrite_bounded {m : List (Nat × α)} {b j : Nat} (h : ∀ e ∈ m, e.1 < b) (hj : j < b) (v : α) :
    ∀ e ∈ memWrite m j v, e.1 < b := by
  intro e he
  rcases mem_memWrite he with rfl | he
  · exact hj
  · exact h e he

theorem rxForget_rising {m : RxBuf} (h : memRising m) (n : Nat) : memRising (rxForget n m) := by
  induction n with
  | zero => exact h
  | succ n ih => exact memWrite_rising ih _ _

theorem rxForget_bounded {m : RxBuf} {b n : Nat} (h : ∀ e ∈ m, e.1 < b) (hn : n ≤ b) :
    ∀ e ∈ rxForget n m, e.1 < b := by
  induction n with
  | zero => exact h
  | succ n ih => exact memWrite_bounded (ih (by omega)) (by omega) _

/-- After an abort the first n entries are unspecified and the others as before. -/
theorem memRead_rxForget (m : RxBuf) (n j : Nat) :
    memRead (rxForget n m) j = if j < n then some .unspecified else memRead m j := by
  induction n with
  | zero => simp [rxForget]
  | succ n ih =>
    rw [rxForget]
    by_cases h : j = n
    · subst h
      simp
    · rw [memRead_memWrite_of_ne _ _ h, ih]
      by_cases hj : j < n
      · rw [if_pos hj, if_pos (by omega)]
      · rw [if_neg hj, if_neg (by omega)]

/-- All of the first n entries are written exactly when each reads as something. -/
theorem allWritten_iff (m : List (Nat × α)) (n : Nat) :
    allWritten m n = true ↔ ∀ j, j < n → ∃ v, memRead m j = some v := by
  induction n with
  | zero => simp [allWritten]
  | succ n ih =>
    rw [allWritten, Bool.and_eq_true, ih, Option.isSome_iff_exists]
    constructor
    · rintro ⟨h, hn⟩ j hj
      rcases Nat.lt_succ_iff_lt_or_eq.1 hj with hj | rfl
      · exact h j hj
      · exact hn
    · exact fun h => ⟨fun j hj => h j (by omega), h n (by omega)⟩

theorem allWritten_memWrite {m : List (Nat × α)} {n : Nat} (h : allWritten m n = true) (j : Nat) (v : α) :
    allWritten (memWrite m j v) n = true := by
  rw [allWritten_iff] at h ⊢
  intro i hi
  by_cases hij : i = j
  · subst hij
    exact ⟨v, memRead_memWrite_self ..⟩
  · rw [memRead_memWrite_of_ne _ _ hij]
    exact h i hi

end Sys2Proof.Machine
end

