-- ==== Sys2Proof/Laws/State.lean ====
section
/-! SUPPORT. Each field after each named update of the state, once, so that no proof unfolds an update. -/

namespace Sys2Proof.Machine

variable (s : State)

/-! ### busIssue -/

@[simp] theorem busIssue_engSeq (sa : Byte) (dr : Option Byte) (c : BusCmd) :
    (busIssue sa dr c s).engSeq = s.engSeq := rfl
@[simp] theorem busIssue_engReq (sa : Byte) (dr : Option Byte) (c : BusCmd) :
    (busIssue sa dr c s).engReq = s.engReq := rfl
@[simp] theorem busIssue_engStatus (sa : Byte) (dr : Option Byte) (c : BusCmd) :
    (busIssue sa dr c s).engStatus = s.engStatus := rfl
@[simp] theorem busIssue_engResult (sa : Byte) (dr : Option Byte) (c : BusCmd) :
    (busIssue sa dr c s).engResult = s.engResult := rfl
@[simp] theorem busIssue_rxbuf (sa : Byte) (dr : Option Byte) (c : BusCmd) :
    (busIssue sa dr c s).rxbuf = s.rxbuf := rfl
@[simp] theorem busIssue_txbuf (sa : Byte) (dr : Option Byte) (c : BusCmd) :
    (busIssue sa dr c s).txbuf = s.txbuf := rfl
@[simp] theorem busIssue_bcSa (sa : Byte) (dr : Option Byte) (c : BusCmd) :
    (busIssue sa dr c s).bcSa = some sa := rfl
@[simp] theorem busIssue_bcDrOut (sa : Byte) (dr : Option Byte) (c : BusCmd) :
    (busIssue sa dr c s).bcDrOut = dr.or s.bcDrOut := rfl
@[simp] theorem busIssue_bcCmd (sa : Byte) (dr : Option Byte) (c : BusCmd) :
    (busIssue sa dr c s).bcCmd = some (s.params.cmdEnc.code c) := rfl
@[simp] theorem busIssue_bcBusy (sa : Byte) (dr : Option Byte) (c : BusCmd) :
    (busIssue sa dr c s).bcBusy = true := rfl
@[simp] theorem busIssue_bcErr (sa : Byte) (dr : Option Byte) (c : BusCmd) :
    (busIssue sa dr c s).bcErr = s.bcErr := rfl
@[simp] theorem busIssue_bcDrIn (sa : Byte) (dr : Option Byte) (c : BusCmd) :
    (busIssue sa dr c s).bcDrIn = s.bcDrIn := rfl
@[simp] theorem busIssue_bcHeld (sa : Byte) (dr : Option Byte) (c : BusCmd) :
    (busIssue sa dr c s).bcHeld = s.bcHeld := rfl
@[simp] theorem busIssue_busInFlight (sa : Byte) (dr : Option Byte) (c : BusCmd) :
    (busIssue sa dr c s).busInFlight = some c := rfl
@[simp] theorem busIssue_smpSeq (sa : Byte) (dr : Option Byte) (c : BusCmd) :
    (busIssue sa dr c s).smpSeq = s.smpSeq := rfl
@[simp] theorem busIssue_sched (sa : Byte) (dr : Option Byte) (c : BusCmd) :
    (busIssue sa dr c s).sched = s.sched := rfl
@[simp] theorem busIssue_smpPend (sa : Byte) (dr : Option Byte) (c : BusCmd) :
    (busIssue sa dr c s).smpPend = s.smpPend := rfl
@[simp] theorem busIssue_sv (sa : Byte) (dr : Option Byte) (c : BusCmd) :
    (busIssue sa dr c s).sv = s.sv := rfl
@[simp] theorem busIssue_kf (sa : Byte) (dr : Option Byte) (c : BusCmd) :
    (busIssue sa dr c s).kf = s.kf := rfl
@[simp] theorem busIssue_ierr (sa : Byte) (dr : Option Byte) (c : BusCmd) :
    (busIssue sa dr c s).ierr = s.ierr := rfl
@[simp] theorem busIssue_tvec (sa : Byte) (dr : Option Byte) (c : BusCmd) :
    (busIssue sa dr c s).tvec = s.tvec := rfl
@[simp] theorem busIssue_torque (sa : Byte) (dr : Option Byte) (c : BusCmd) :
    (busIssue sa dr c s).torque = s.torque := rfl
@[simp] theorem busIssue_cfg (sa : Byte) (dr : Option Byte) (c : BusCmd) :
    (busIssue sa dr c s).cfg = s.cfg := rfl
@[simp] theorem busIssue_pwmWidth (sa : Byte) (dr : Option Byte) (c : BusCmd) :
    (busIssue sa dr c s).pwmWidth = s.pwmWidth := rfl
@[simp] theorem busIssue_refusedMark (sa : Byte) (dr : Option Byte) (c : BusCmd) :
    (busIssue sa dr c s).refusedMark = s.refusedMark := rfl
@[simp] theorem busIssue_faultMark (sa : Byte) (dr : Option Byte) (c : BusCmd) :
    (busIssue sa dr c s).faultMark = s.faultMark := rfl
@[simp] theorem busIssue_resetAsserted (sa : Byte) (dr : Option Byte) (c : BusCmd) :
    (busIssue sa dr c s).resetAsserted = s.resetAsserted := rfl
@[simp] theorem busIssue_params (sa : Byte) (dr : Option Byte) (c : BusCmd) :
    (busIssue sa dr c s).params = s.params := rfl
@[simp] theorem busIssue_agenda (sa : Byte) (dr : Option Byte) (c : BusCmd) :
    (busIssue sa dr c s).agenda = s.agenda := rfl
@[simp] theorem busIssue_draws (sa : Byte) (dr : Option Byte) (c : BusCmd) :
    (busIssue sa dr c s).draws = s.draws := rfl
@[simp] theorem busIssue_readOut (sa : Byte) (dr : Option Byte) (c : BusCmd) :
    (busIssue sa dr c s).readOut = s.readOut := rfl

/-! ### beginTxn -/

@[simp] theorem beginTxn_engSeq (op : EngOp) (dev : BitVec 7) (reg : Byte) (n : Nat) (w : Word) :
    (beginTxn op dev reg n w s).engSeq = .active ⟨op, dev, reg, n, 0, .preWait⟩ := rfl
@[simp] theorem beginTxn_engReq (op : EngOp) (dev : BitVec 7) (reg : Byte) (n : Nat) (w : Word) :
    (beginTxn op dev reg n w s).engReq = some w := rfl
@[simp] theorem beginTxn_engStatus (op : EngOp) (dev : BitVec 7) (reg : Byte) (n : Nat) (w : Word) :
    (beginTxn op dev reg n w s).engStatus = statusWord true false false := rfl
@[simp] theorem beginTxn_engResult (op : EngOp) (dev : BitVec 7) (reg : Byte) (n : Nat) (w : Word) :
    (beginTxn op dev reg n w s).engResult = s.engResult := rfl
@[simp] theorem beginTxn_rxbuf (op : EngOp) (dev : BitVec 7) (reg : Byte) (n : Nat) (w : Word) :
    (beginTxn op dev reg n w s).rxbuf = s.rxbuf := rfl
@[simp] theorem beginTxn_txbuf (op : EngOp) (dev : BitVec 7) (reg : Byte) (n : Nat) (w : Word) :
    (beginTxn op dev reg n w s).txbuf = s.txbuf := rfl
@[simp] theorem beginTxn_bcSa (op : EngOp) (dev : BitVec 7) (reg : Byte) (n : Nat) (w : Word) :
    (beginTxn op dev reg n w s).bcSa = s.bcSa := rfl
@[simp] theorem beginTxn_bcDrOut (op : EngOp) (dev : BitVec 7) (reg : Byte) (n : Nat) (w : Word) :
    (beginTxn op dev reg n w s).bcDrOut = s.bcDrOut := rfl
@[simp] theorem beginTxn_bcCmd (op : EngOp) (dev : BitVec 7) (reg : Byte) (n : Nat) (w : Word) :
    (beginTxn op dev reg n w s).bcCmd = s.bcCmd := rfl
@[simp] theorem beginTxn_bcBusy (op : EngOp) (dev : BitVec 7) (reg : Byte) (n : Nat) (w : Word) :
    (beginTxn op dev reg n w s).bcBusy = s.bcBusy := rfl
@[simp] theorem beginTxn_bcErr (op : EngOp) (dev : BitVec 7) (reg : Byte) (n : Nat) (w : Word) :
    (beginTxn op dev reg n w s).bcErr = s.bcErr := rfl
@[simp] theorem beginTxn_bcDrIn (op : EngOp) (dev : BitVec 7) (reg : Byte) (n : Nat) (w : Word) :
    (beginTxn op dev reg n w s).bcDrIn = s.bcDrIn := rfl
@[simp] theorem beginTxn_bcHeld (op : EngOp) (dev : BitVec 7) (reg : Byte) (n : Nat) (w : Word) :
    (beginTxn op dev reg n w s).bcHeld = s.bcHeld := rfl
@[simp] theorem beginTxn_busInFlight (op : EngOp) (dev : BitVec 7) (reg : Byte) (n : Nat) (w : Word) :
    (beginTxn op dev reg n w s).busInFlight = s.busInFlight := rfl
@[simp] theorem beginTxn_smpSeq (op : EngOp) (dev : BitVec 7) (reg : Byte) (n : Nat) (w : Word) :
    (beginTxn op dev reg n w s).smpSeq = s.smpSeq := rfl
@[simp] theorem beginTxn_sched (op : EngOp) (dev : BitVec 7) (reg : Byte) (n : Nat) (w : Word) :
    (beginTxn op dev reg n w s).sched = s.sched := rfl
@[simp] theorem beginTxn_smpPend (op : EngOp) (dev : BitVec 7) (reg : Byte) (n : Nat) (w : Word) :
    (beginTxn op dev reg n w s).smpPend = s.smpPend := rfl
@[simp] theorem beginTxn_sv (op : EngOp) (dev : BitVec 7) (reg : Byte) (n : Nat) (w : Word) :
    (beginTxn op dev reg n w s).sv = s.sv := rfl
@[simp] theorem beginTxn_kf (op : EngOp) (dev : BitVec 7) (reg : Byte) (n : Nat) (w : Word) :
    (beginTxn op dev reg n w s).kf = s.kf := rfl
@[simp] theorem beginTxn_ierr (op : EngOp) (dev : BitVec 7) (reg : Byte) (n : Nat) (w : Word) :
    (beginTxn op dev reg n w s).ierr = s.ierr := rfl
@[simp] theorem beginTxn_tvec (op : EngOp) (dev : BitVec 7) (reg : Byte) (n : Nat) (w : Word) :
    (beginTxn op dev reg n w s).tvec = s.tvec := rfl
@[simp] theorem beginTxn_torque (op : EngOp) (dev : BitVec 7) (reg : Byte) (n : Nat) (w : Word) :
    (beginTxn op dev reg n w s).torque = s.torque := rfl
@[simp] theorem beginTxn_cfg (op : EngOp) (dev : BitVec 7) (reg : Byte) (n : Nat) (w : Word) :
    (beginTxn op dev reg n w s).cfg = s.cfg := rfl
@[simp] theorem beginTxn_pwmWidth (op : EngOp) (dev : BitVec 7) (reg : Byte) (n : Nat) (w : Word) :
    (beginTxn op dev reg n w s).pwmWidth = s.pwmWidth := rfl
@[simp] theorem beginTxn_refusedMark (op : EngOp) (dev : BitVec 7) (reg : Byte) (n : Nat) (w : Word) :
    (beginTxn op dev reg n w s).refusedMark = s.refusedMark := rfl
@[simp] theorem beginTxn_faultMark (op : EngOp) (dev : BitVec 7) (reg : Byte) (n : Nat) (w : Word) :
    (beginTxn op dev reg n w s).faultMark = s.faultMark := rfl
@[simp] theorem beginTxn_resetAsserted (op : EngOp) (dev : BitVec 7) (reg : Byte) (n : Nat) (w : Word) :
    (beginTxn op dev reg n w s).resetAsserted = s.resetAsserted := rfl
@[simp] theorem beginTxn_params (op : EngOp) (dev : BitVec 7) (reg : Byte) (n : Nat) (w : Word) :
    (beginTxn op dev reg n w s).params = s.params := rfl
@[simp] theorem beginTxn_agenda (op : EngOp) (dev : BitVec 7) (reg : Byte) (n : Nat) (w : Word) :
    (beginTxn op dev reg n w s).agenda = s.agenda := rfl
@[simp] theorem beginTxn_draws (op : EngOp) (dev : BitVec 7) (reg : Byte) (n : Nat) (w : Word) :
    (beginTxn op dev reg n w s).draws = s.draws := rfl
@[simp] theorem beginTxn_readOut (op : EngOp) (dev : BitVec 7) (reg : Byte) (n : Nat) (w : Word) :
    (beginTxn op dev reg n w s).readOut = s.readOut := rfl

/-! ### capture -/

@[simp] theorem capture_engSeq (t : Txn) :
    (capture t s).engSeq = s.engSeq := rfl
@[simp] theorem capture_engReq (t : Txn) :
    (capture t s).engReq = s.engReq := rfl
@[simp] theorem capture_engStatus (t : Txn) :
    (capture t s).engStatus = s.engStatus := rfl
@[simp] theorem capture_engResult (t : Txn) :
    (capture t s).engResult = s.engResult := rfl
@[simp] theorem capture_rxbuf (t : Txn) :
    (capture t s).rxbuf = if t.op = .readBurst ∧ 1 ≤ t.k then memWrite s.rxbuf (t.k - 1) (.byte s.bcDrIn) else s.rxbuf := rfl
@[simp] theorem capture_txbuf (t : Txn) :
    (capture t s).txbuf = s.txbuf := rfl
@[simp] theorem capture_bcSa (t : Txn) :
    (capture t s).bcSa = s.bcSa := rfl
@[simp] theorem capture_bcDrOut (t : Txn) :
    (capture t s).bcDrOut = s.bcDrOut := rfl
@[simp] theorem capture_bcCmd (t : Txn) :
    (capture t s).bcCmd = s.bcCmd := rfl
@[simp] theorem capture_bcBusy (t : Txn) :
    (capture t s).bcBusy = s.bcBusy := rfl
@[simp] theorem capture_bcErr (t : Txn) :
    (capture t s).bcErr = s.bcErr := rfl
@[simp] theorem capture_bcDrIn (t : Txn) :
    (capture t s).bcDrIn = s.bcDrIn := rfl
@[simp] theorem capture_bcHeld (t : Txn) :
    (capture t s).bcHeld = s.bcHeld := rfl
@[simp] theorem capture_busInFlight (t : Txn) :
    (capture t s).busInFlight = s.busInFlight := rfl
@[simp] theorem capture_smpSeq (t : Txn) :
    (capture t s).smpSeq = s.smpSeq := rfl
@[simp] theorem capture_sched (t : Txn) :
    (capture t s).sched = s.sched := rfl
@[simp] theorem capture_smpPend (t : Txn) :
    (capture t s).smpPend = s.smpPend := rfl
@[simp] theorem capture_sv (t : Txn) :
    (capture t s).sv = s.sv := rfl
@[simp] theorem capture_kf (t : Txn) :
    (capture t s).kf = s.kf := rfl
@[simp] theorem capture_ierr (t : Txn) :
    (capture t s).ierr = s.ierr := rfl
@[simp] theorem capture_tvec (t : Txn) :
    (capture t s).tvec = s.tvec := rfl
@[simp] theorem capture_torque (t : Txn) :
    (capture t s).torque = s.torque := rfl
@[simp] theorem capture_cfg (t : Txn) :
    (capture t s).cfg = s.cfg := rfl
@[simp] theorem capture_pwmWidth (t : Txn) :
    (capture t s).pwmWidth = s.pwmWidth := rfl
@[simp] theorem capture_refusedMark (t : Txn) :
    (capture t s).refusedMark = s.refusedMark := rfl
@[simp] theorem capture_faultMark (t : Txn) :
    (capture t s).faultMark = s.faultMark := rfl
@[simp] theorem capture_resetAsserted (t : Txn) :
    (capture t s).resetAsserted = s.resetAsserted := rfl
@[simp] theorem capture_params (t : Txn) :
    (capture t s).params = s.params := rfl
@[simp] theorem capture_agenda (t : Txn) :
    (capture t s).agenda = s.agenda := rfl
@[simp] theorem capture_draws (t : Txn) :
    (capture t s).draws = s.draws := rfl
@[simp] theorem capture_readOut (t : Txn) :
    (capture t s).readOut = s.readOut := rfl

/-! ### completeTxn -/

@[simp] theorem completeTxn_engSeq (t : Txn) :
    (completeTxn t s).engSeq = .idle := rfl
@[simp] theorem completeTxn_engReq (t : Txn) :
    (completeTxn t s).engReq = s.engReq := rfl
@[simp] theorem completeTxn_engStatus (t : Txn) :
    (completeTxn t s).engStatus = statusWord false true false := rfl
@[simp] theorem completeTxn_engResult (t : Txn) :
    (completeTxn t s).engResult = resultOf t s.bcDrIn := rfl
@[simp] theorem completeTxn_rxbuf (t : Txn) :
    (completeTxn t s).rxbuf = s.rxbuf := rfl
@[simp] theorem completeTxn_txbuf (t : Txn) :
    (completeTxn t s).txbuf = s.txbuf := rfl
@[simp] theorem completeTxn_bcSa (t : Txn) :
    (completeTxn t s).bcSa = s.bcSa := rfl
@[simp] theorem completeTxn_bcDrOut (t : Txn) :
    (completeTxn t s).bcDrOut = s.bcDrOut := rfl
@[simp] theorem completeTxn_bcCmd (t : Txn) :
    (completeTxn t s).bcCmd = s.bcCmd := rfl
@[simp] theorem completeTxn_bcBusy (t : Txn) :
    (completeTxn t s).bcBusy = s.bcBusy := rfl
@[simp] theorem completeTxn_bcErr (t : Txn) :
    (completeTxn t s).bcErr = s.bcErr := rfl
@[simp] theorem completeTxn_bcDrIn (t : Txn) :
    (completeTxn t s).bcDrIn = s.bcDrIn := rfl
@[simp] theorem completeTxn_bcHeld (t : Txn) :
    (completeTxn t s).bcHeld = s.bcHeld := rfl
@[simp] theorem completeTxn_busInFlight (t : Txn) :
    (completeTxn t s).busInFlight = s.busInFlight := rfl
@[simp] theorem completeTxn_smpSeq (t : Txn) :
    (completeTxn t s).smpSeq = s.smpSeq := rfl
@[simp] theorem completeTxn_sched (t : Txn) :
    (completeTxn t s).sched = s.sched := rfl
@[simp] theorem completeTxn_smpPend (t : Txn) :
    (completeTxn t s).smpPend = s.smpPend := rfl
@[simp] theorem completeTxn_sv (t : Txn) :
    (completeTxn t s).sv = s.sv := rfl
@[simp] theorem completeTxn_kf (t : Txn) :
    (completeTxn t s).kf = s.kf := rfl
@[simp] theorem completeTxn_ierr (t : Txn) :
    (completeTxn t s).ierr = s.ierr := rfl
@[simp] theorem completeTxn_tvec (t : Txn) :
    (completeTxn t s).tvec = s.tvec := rfl
@[simp] theorem completeTxn_torque (t : Txn) :
    (completeTxn t s).torque = s.torque := rfl
@[simp] theorem completeTxn_cfg (t : Txn) :
    (completeTxn t s).cfg = s.cfg := rfl
@[simp] theorem completeTxn_pwmWidth (t : Txn) :
    (completeTxn t s).pwmWidth = s.pwmWidth := rfl
@[simp] theorem completeTxn_refusedMark (t : Txn) :
    (completeTxn t s).refusedMark = s.refusedMark := rfl
@[simp] theorem completeTxn_faultMark (t : Txn) :
    (completeTxn t s).faultMark = s.faultMark := rfl
@[simp] theorem completeTxn_resetAsserted (t : Txn) :
    (completeTxn t s).resetAsserted = s.resetAsserted := rfl
@[simp] theorem completeTxn_params (t : Txn) :
    (completeTxn t s).params = s.params := rfl
@[simp] theorem completeTxn_agenda (t : Txn) :
    (completeTxn t s).agenda = s.agenda := rfl
@[simp] theorem completeTxn_draws (t : Txn) :
    (completeTxn t s).draws = s.draws := rfl
@[simp] theorem completeTxn_readOut (t : Txn) :
    (completeTxn t s).readOut = s.readOut := rfl

/-! ### busFail -/

@[simp] theorem busFail_engSeq (t : Txn) :
    (busFail t s).engSeq = .idle := rfl
@[simp] theorem busFail_engReq (t : Txn) :
    (busFail t s).engReq = s.engReq := rfl
@[simp] theorem busFail_engStatus (t : Txn) :
    (busFail t s).engStatus = statusWord false true true := rfl
@[simp] theorem busFail_engResult (t : Txn) :
    (busFail t s).engResult = 0x00#8 := rfl
@[simp] theorem busFail_rxbuf (t : Txn) :
    (busFail t s).rxbuf = if t.op = .readBurst then rxForget t.n s.rxbuf else s.rxbuf := rfl
@[simp] theorem busFail_txbuf (t : Txn) :
    (busFail t s).txbuf = s.txbuf := rfl
@[simp] theorem busFail_bcSa (t : Txn) :
    (busFail t s).bcSa = s.bcSa := rfl
@[simp] theorem busFail_bcDrOut (t : Txn) :
    (busFail t s).bcDrOut = s.bcDrOut := rfl
@[simp] theorem busFail_bcCmd (t : Txn) :
    (busFail t s).bcCmd = s.bcCmd := rfl
@[simp] theorem busFail_bcBusy (t : Txn) :
    (busFail t s).bcBusy = s.bcBusy := rfl
@[simp] theorem busFail_bcErr (t : Txn) :
    (busFail t s).bcErr = s.bcErr := rfl
@[simp] theorem busFail_bcDrIn (t : Txn) :
    (busFail t s).bcDrIn = s.bcDrIn := rfl
@[simp] theorem busFail_bcHeld (t : Txn) :
    (busFail t s).bcHeld = s.bcHeld := rfl
@[simp] theorem busFail_busInFlight (t : Txn) :
    (busFail t s).busInFlight = s.busInFlight := rfl
@[simp] theorem busFail_smpSeq (t : Txn) :
    (busFail t s).smpSeq = s.smpSeq := rfl
@[simp] theorem busFail_sched (t : Txn) :
    (busFail t s).sched = s.sched := rfl
@[simp] theorem busFail_smpPend (t : Txn) :
    (busFail t s).smpPend = s.smpPend := rfl
@[simp] theorem busFail_sv (t : Txn) :
    (busFail t s).sv = s.sv := rfl
@[simp] theorem busFail_kf (t : Txn) :
    (busFail t s).kf = s.kf := rfl
@[simp] theorem busFail_ierr (t : Txn) :
    (busFail t s).ierr = s.ierr := rfl
@[simp] theorem busFail_tvec (t : Txn) :
    (busFail t s).tvec = s.tvec := rfl
@[simp] theorem busFail_torque (t : Txn) :
    (busFail t s).torque = s.torque := rfl
@[simp] theorem busFail_cfg (t : Txn) :
    (busFail t s).cfg = s.cfg := rfl
@[simp] theorem busFail_pwmWidth (t : Txn) :
    (busFail t s).pwmWidth = s.pwmWidth := rfl
@[simp] theorem busFail_refusedMark (t : Txn) :
    (busFail t s).refusedMark = s.refusedMark := rfl
@[simp] theorem busFail_faultMark (t : Txn) :
    (busFail t s).faultMark = s.faultMark := rfl
@[simp] theorem busFail_resetAsserted (t : Txn) :
    (busFail t s).resetAsserted = s.resetAsserted := rfl
@[simp] theorem busFail_params (t : Txn) :
    (busFail t s).params = s.params := rfl
@[simp] theorem busFail_agenda (t : Txn) :
    (busFail t s).agenda = s.agenda := rfl
@[simp] theorem busFail_draws (t : Txn) :
    (busFail t s).draws = s.draws := rfl
@[simp] theorem busFail_readOut (t : Txn) :
    (busFail t s).readOut = s.readOut := rfl

/-! ### toStage -/

@[simp] theorem toStage_engSeq (t : Txn) (k : Nat) (g : Stage) :
    (toStage t k g s).engSeq = .active { t with k := k, stage := g } := rfl
@[simp] theorem toStage_engReq (t : Txn) (k : Nat) (g : Stage) :
    (toStage t k g s).engReq = s.engReq := rfl
@[simp] theorem toStage_engStatus (t : Txn) (k : Nat) (g : Stage) :
    (toStage t k g s).engStatus = s.engStatus := rfl
@[simp] theorem toStage_engResult (t : Txn) (k : Nat) (g : Stage) :
    (toStage t k g s).engResult = s.engResult := rfl
@[simp] theorem toStage_rxbuf (t : Txn) (k : Nat) (g : Stage) :
    (toStage t k g s).rxbuf = s.rxbuf := rfl
@[simp] theorem toStage_txbuf (t : Txn) (k : Nat) (g : Stage) :
    (toStage t k g s).txbuf = s.txbuf := rfl
@[simp] theorem toStage_bcSa (t : Txn) (k : Nat) (g : Stage) :
    (toStage t k g s).bcSa = s.bcSa := rfl
@[simp] theorem toStage_bcDrOut (t : Txn) (k : Nat) (g : Stage) :
    (toStage t k g s).bcDrOut = s.bcDrOut := rfl
@[simp] theorem toStage_bcCmd (t : Txn) (k : Nat) (g : Stage) :
    (toStage t k g s).bcCmd = s.bcCmd := rfl
@[simp] theorem toStage_bcBusy (t : Txn) (k : Nat) (g : Stage) :
    (toStage t k g s).bcBusy = s.bcBusy := rfl
@[simp] theorem toStage_bcErr (t : Txn) (k : Nat) (g : Stage) :
    (toStage t k g s).bcErr = s.bcErr := rfl
@[simp] theorem toStage_bcDrIn (t : Txn) (k : Nat) (g : Stage) :
    (toStage t k g s).bcDrIn = s.bcDrIn := rfl
@[simp] theorem toStage_bcHeld (t : Txn) (k : Nat) (g : Stage) :
    (toStage t k g s).bcHeld = s.bcHeld := rfl
@[simp] theorem toStage_busInFlight (t : Txn) (k : Nat) (g : Stage) :
    (toStage t k g s).busInFlight = s.busInFlight := rfl
@[simp] theorem toStage_smpSeq (t : Txn) (k : Nat) (g : Stage) :
    (toStage t k g s).smpSeq = s.smpSeq := rfl
@[simp] theorem toStage_sched (t : Txn) (k : Nat) (g : Stage) :
    (toStage t k g s).sched = s.sched := rfl
@[simp] theorem toStage_smpPend (t : Txn) (k : Nat) (g : Stage) :
    (toStage t k g s).smpPend = s.smpPend := rfl
@[simp] theorem toStage_sv (t : Txn) (k : Nat) (g : Stage) :
    (toStage t k g s).sv = s.sv := rfl
@[simp] theorem toStage_kf (t : Txn) (k : Nat) (g : Stage) :
    (toStage t k g s).kf = s.kf := rfl
@[simp] theorem toStage_ierr (t : Txn) (k : Nat) (g : Stage) :
    (toStage t k g s).ierr = s.ierr := rfl
@[simp] theorem toStage_tvec (t : Txn) (k : Nat) (g : Stage) :
    (toStage t k g s).tvec = s.tvec := rfl
@[simp] theorem toStage_torque (t : Txn) (k : Nat) (g : Stage) :
    (toStage t k g s).torque = s.torque := rfl
@[simp] theorem toStage_cfg (t : Txn) (k : Nat) (g : Stage) :
    (toStage t k g s).cfg = s.cfg := rfl
@[simp] theorem toStage_pwmWidth (t : Txn) (k : Nat) (g : Stage) :
    (toStage t k g s).pwmWidth = s.pwmWidth := rfl
@[simp] theorem toStage_refusedMark (t : Txn) (k : Nat) (g : Stage) :
    (toStage t k g s).refusedMark = s.refusedMark := rfl
@[simp] theorem toStage_faultMark (t : Txn) (k : Nat) (g : Stage) :
    (toStage t k g s).faultMark = s.faultMark := rfl
@[simp] theorem toStage_resetAsserted (t : Txn) (k : Nat) (g : Stage) :
    (toStage t k g s).resetAsserted = s.resetAsserted := rfl
@[simp] theorem toStage_params (t : Txn) (k : Nat) (g : Stage) :
    (toStage t k g s).params = s.params := rfl
@[simp] theorem toStage_agenda (t : Txn) (k : Nat) (g : Stage) :
    (toStage t k g s).agenda = s.agenda := rfl
@[simp] theorem toStage_draws (t : Txn) (k : Nat) (g : Stage) :
    (toStage t k g s).draws = s.draws := rfl
@[simp] theorem toStage_readOut (t : Txn) (k : Nat) (g : Stage) :
    (toStage t k g s).readOut = s.readOut := rfl

/-! ### sampleEnd -/

@[simp] theorem sampleEnd_engSeq (q : Sensor) :
    (sampleEnd q s).engSeq = s.engSeq := rfl
@[simp] theorem sampleEnd_engReq (q : Sensor) :
    (sampleEnd q s).engReq = s.engReq := rfl
@[simp] theorem sampleEnd_engStatus (q : Sensor) :
    (sampleEnd q s).engStatus = s.engStatus := rfl
@[simp] theorem sampleEnd_engResult (q : Sensor) :
    (sampleEnd q s).engResult = s.engResult := rfl
@[simp] theorem sampleEnd_rxbuf (q : Sensor) :
    (sampleEnd q s).rxbuf = s.rxbuf := rfl
@[simp] theorem sampleEnd_txbuf (q : Sensor) :
    (sampleEnd q s).txbuf = s.txbuf := rfl
@[simp] theorem sampleEnd_bcSa (q : Sensor) :
    (sampleEnd q s).bcSa = s.bcSa := rfl
@[simp] theorem sampleEnd_bcDrOut (q : Sensor) :
    (sampleEnd q s).bcDrOut = s.bcDrOut := rfl
@[simp] theorem sampleEnd_bcCmd (q : Sensor) :
    (sampleEnd q s).bcCmd = s.bcCmd := rfl
@[simp] theorem sampleEnd_bcBusy (q : Sensor) :
    (sampleEnd q s).bcBusy = s.bcBusy := rfl
@[simp] theorem sampleEnd_bcErr (q : Sensor) :
    (sampleEnd q s).bcErr = s.bcErr := rfl
@[simp] theorem sampleEnd_bcDrIn (q : Sensor) :
    (sampleEnd q s).bcDrIn = s.bcDrIn := rfl
@[simp] theorem sampleEnd_bcHeld (q : Sensor) :
    (sampleEnd q s).bcHeld = s.bcHeld := rfl
@[simp] theorem sampleEnd_busInFlight (q : Sensor) :
    (sampleEnd q s).busInFlight = s.busInFlight := rfl
@[simp] theorem sampleEnd_smpSeq (q : Sensor) :
    (sampleEnd q s).smpSeq = .idle := rfl
@[simp] theorem sampleEnd_sched (q : Sensor) :
    (sampleEnd q s).sched = q.succ := rfl
@[simp] theorem sampleEnd_smpPend (q : Sensor) :
    (sampleEnd q s).smpPend = s.smpPend := rfl
@[simp] theorem sampleEnd_sv (q : Sensor) :
    (sampleEnd q s).sv = s.sv := rfl
@[simp] theorem sampleEnd_kf (q : Sensor) :
    (sampleEnd q s).kf = s.kf := rfl
@[simp] theorem sampleEnd_ierr (q : Sensor) :
    (sampleEnd q s).ierr = s.ierr := rfl
@[simp] theorem sampleEnd_tvec (q : Sensor) :
    (sampleEnd q s).tvec = s.tvec := rfl
@[simp] theorem sampleEnd_torque (q : Sensor) :
    (sampleEnd q s).torque = s.torque := rfl
@[simp] theorem sampleEnd_cfg (q : Sensor) :
    (sampleEnd q s).cfg = s.cfg := rfl
@[simp] theorem sampleEnd_pwmWidth (q : Sensor) :
    (sampleEnd q s).pwmWidth = s.pwmWidth := rfl
@[simp] theorem sampleEnd_refusedMark (q : Sensor) :
    (sampleEnd q s).refusedMark = s.refusedMark := rfl
@[simp] theorem sampleEnd_faultMark (q : Sensor) :
    (sampleEnd q s).faultMark = s.faultMark := rfl
@[simp] theorem sampleEnd_resetAsserted (q : Sensor) :
    (sampleEnd q s).resetAsserted = s.resetAsserted := rfl
@[simp] theorem sampleEnd_params (q : Sensor) :
    (sampleEnd q s).params = s.params := rfl
@[simp] theorem sampleEnd_agenda (q : Sensor) :
    (sampleEnd q s).agenda = s.agenda := rfl
@[simp] theorem sampleEnd_draws (q : Sensor) :
    (sampleEnd q s).draws = s.draws := rfl
@[simp] theorem sampleEnd_readOut (q : Sensor) :
    (sampleEnd q s).readOut = s.readOut := rfl

/-! ### controlTickWith -/

@[simp] theorem controlTickWith_engSeq (z : Meas) :
    (controlTickWith z s).engSeq = s.engSeq := rfl
@[simp] theorem controlTickWith_engReq (z : Meas) :
    (controlTickWith z s).engReq = s.engReq := rfl
@[simp] theorem controlTickWith_engStatus (z : Meas) :
    (controlTickWith z s).engStatus = s.engStatus := rfl
@[simp] theorem controlTickWith_engResult (z : Meas) :
    (controlTickWith z s).engResult = s.engResult := rfl
@[simp] theorem controlTickWith_rxbuf (z : Meas) :
    (controlTickWith z s).rxbuf = s.rxbuf := rfl
@[simp] theorem controlTickWith_txbuf (z : Meas) :
    (controlTickWith z s).txbuf = s.txbuf := rfl
@[simp] theorem controlTickWith_bcSa (z : Meas) :
    (controlTickWith z s).bcSa = s.bcSa := rfl
@[simp] theorem controlTickWith_bcDrOut (z : Meas) :
    (controlTickWith z s).bcDrOut = s.bcDrOut := rfl
@[simp] theorem controlTickWith_bcCmd (z : Meas) :
    (controlTickWith z s).bcCmd = s.bcCmd := rfl
@[simp] theorem controlTickWith_bcBusy (z : Meas) :
    (controlTickWith z s).bcBusy = s.bcBusy := rfl
@[simp] theorem controlTickWith_bcErr (z : Meas) :
    (controlTickWith z s).bcErr = s.bcErr := rfl
@[simp] theorem controlTickWith_bcDrIn (z : Meas) :
    (controlTickWith z s).bcDrIn = s.bcDrIn := rfl
@[simp] theorem controlTickWith_bcHeld (z : Meas) :
    (controlTickWith z s).bcHeld = s.bcHeld := rfl
@[simp] theorem controlTickWith_busInFlight (z : Meas) :
    (controlTickWith z s).busInFlight = s.busInFlight := rfl
@[simp] theorem controlTickWith_smpSeq (z : Meas) :
    (controlTickWith z s).smpSeq = s.smpSeq := rfl
@[simp] theorem controlTickWith_sched (z : Meas) :
    (controlTickWith z s).sched = s.sched := rfl
@[simp] theorem controlTickWith_smpPend (z : Meas) :
    (controlTickWith z s).smpPend = s.smpPend := rfl
@[simp] theorem controlTickWith_sv (z : Meas) :
    (controlTickWith z s).sv = s.sv := rfl
@[simp] theorem controlTickWith_kf (z : Meas) :
    (controlTickWith z s).kf = tickKf z s := rfl
@[simp] theorem controlTickWith_ierr (z : Meas) :
    (controlTickWith z s).ierr = tickIerr z s := rfl
@[simp] theorem controlTickWith_tvec (z : Meas) :
    (controlTickWith z s).tvec = some (tickTvec z s) := rfl
@[simp] theorem controlTickWith_torque (z : Meas) :
    (controlTickWith z s).torque = s.torque := rfl
@[simp] theorem controlTickWith_cfg (z : Meas) :
    (controlTickWith z s).cfg = s.cfg := rfl
@[simp] theorem controlTickWith_pwmWidth (z : Meas) :
    (controlTickWith z s).pwmWidth = some (tickWidth z s) := rfl
@[simp] theorem controlTickWith_refusedMark (z : Meas) :
    (controlTickWith z s).refusedMark = s.refusedMark := rfl
@[simp] theorem controlTickWith_faultMark (z : Meas) :
    (controlTickWith z s).faultMark = s.faultMark := rfl
@[simp] theorem controlTickWith_resetAsserted (z : Meas) :
    (controlTickWith z s).resetAsserted = s.resetAsserted := rfl
@[simp] theorem controlTickWith_params (z : Meas) :
    (controlTickWith z s).params = s.params := rfl
@[simp] theorem controlTickWith_agenda (z : Meas) :
    (controlTickWith z s).agenda = s.agenda := rfl
@[simp] theorem controlTickWith_draws (z : Meas) :
    (controlTickWith z s).draws = s.draws := rfl
@[simp] theorem controlTickWith_readOut (z : Meas) :
    (controlTickWith z s).readOut = s.readOut := rfl

/-! ### resetBlock -/

@[simp] theorem resetBlock_engSeq (busy err : Bool) (drIn : Byte) (held : Bool) :
    (resetBlock busy err drIn held s).engSeq = .idle := rfl
@[simp] theorem resetBlock_engReq (busy err : Bool) (drIn : Byte) (held : Bool) :
    (resetBlock busy err drIn held s).engReq = none := rfl
@[simp] theorem resetBlock_engStatus (busy err : Bool) (drIn : Byte) (held : Bool) :
    (resetBlock busy err drIn held s).engStatus = 0x00#8 := rfl
@[simp] theorem resetBlock_engResult (busy err : Bool) (drIn : Byte) (held : Bool) :
    (resetBlock busy err drIn held s).engResult = 0x00#8 := rfl
@[simp] theorem resetBlock_rxbuf (busy err : Bool) (drIn : Byte) (held : Bool) :
    (resetBlock busy err drIn held s).rxbuf = [] := rfl
@[simp] theorem resetBlock_txbuf (busy err : Bool) (drIn : Byte) (held : Bool) :
    (resetBlock busy err drIn held s).txbuf = [] := rfl
@[simp] theorem resetBlock_bcSa (busy err : Bool) (drIn : Byte) (held : Bool) :
    (resetBlock busy err drIn held s).bcSa = none := rfl
@[simp] theorem resetBlock_bcDrOut (busy err : Bool) (drIn : Byte) (held : Bool) :
    (resetBlock busy err drIn held s).bcDrOut = none := rfl
@[simp] theorem resetBlock_bcCmd (busy err : Bool) (drIn : Byte) (held : Bool) :
    (resetBlock busy err drIn held s).bcCmd = none := rfl
@[simp] theorem resetBlock_bcBusy (busy err : Bool) (drIn : Byte) (held : Bool) :
    (resetBlock busy err drIn held s).bcBusy = busy := rfl
@[simp] theorem resetBlock_bcErr (busy err : Bool) (drIn : Byte) (held : Bool) :
    (resetBlock busy err drIn held s).bcErr = err := rfl
@[simp] theorem resetBlock_bcDrIn (busy err : Bool) (drIn : Byte) (held : Bool) :
    (resetBlock busy err drIn held s).bcDrIn = drIn := rfl
@[simp] theorem resetBlock_bcHeld (busy err : Bool) (drIn : Byte) (held : Bool) :
    (resetBlock busy err drIn held s).bcHeld = held := rfl
@[simp] theorem resetBlock_busInFlight (busy err : Bool) (drIn : Byte) (held : Bool) :
    (resetBlock busy err drIn held s).busInFlight = none := rfl
@[simp] theorem resetBlock_smpSeq (busy err : Bool) (drIn : Byte) (held : Bool) :
    (resetBlock busy err drIn held s).smpSeq = .boot .acc := rfl
@[simp] theorem resetBlock_sched (busy err : Bool) (drIn : Byte) (held : Bool) :
    (resetBlock busy err drIn held s).sched = .acc := rfl
@[simp] theorem resetBlock_smpPend (busy err : Bool) (drIn : Byte) (held : Bool) :
    (resetBlock busy err drIn held s).smpPend = false := rfl
@[simp] theorem resetBlock_sv (busy err : Bool) (drIn : Byte) (held : Bool) :
    (resetBlock busy err drIn held s).sv = State.reset.sv := rfl
@[simp] theorem resetBlock_kf (busy err : Bool) (drIn : Byte) (held : Bool) :
    (resetBlock busy err drIn held s).kf = State.reset.kf := rfl
@[simp] theorem resetBlock_ierr (busy err : Bool) (drIn : Byte) (held : Bool) :
    (resetBlock busy err drIn held s).ierr = State.reset.ierr := rfl
@[simp] theorem resetBlock_tvec (busy err : Bool) (drIn : Byte) (held : Bool) :
    (resetBlock busy err drIn held s).tvec = none := rfl
@[simp] theorem resetBlock_torque (busy err : Bool) (drIn : Byte) (held : Bool) :
    (resetBlock busy err drIn held s).torque = 0#32 := rfl
@[simp] theorem resetBlock_cfg (busy err : Bool) (drIn : Byte) (held : Bool) :
    (resetBlock busy err drIn held s).cfg = cfgOf s.params.mixEnReset := rfl
@[simp] theorem resetBlock_pwmWidth (busy err : Bool) (drIn : Byte) (held : Bool) :
    (resetBlock busy err drIn held s).pwmWidth = none := rfl
@[simp] theorem resetBlock_refusedMark (busy err : Bool) (drIn : Byte) (held : Bool) :
    (resetBlock busy err drIn held s).refusedMark = none := rfl
@[simp] theorem resetBlock_faultMark (busy err : Bool) (drIn : Byte) (held : Bool) :
    (resetBlock busy err drIn held s).faultMark = none := rfl
@[simp] theorem resetBlock_resetAsserted (busy err : Bool) (drIn : Byte) (held : Bool) :
    (resetBlock busy err drIn held s).resetAsserted = false := rfl
@[simp] theorem resetBlock_params (busy err : Bool) (drIn : Byte) (held : Bool) :
    (resetBlock busy err drIn held s).params = s.params := rfl
@[simp] theorem resetBlock_agenda (busy err : Bool) (drIn : Byte) (held : Bool) :
    (resetBlock busy err drIn held s).agenda = s.agenda := rfl
@[simp] theorem resetBlock_draws (busy err : Bool) (drIn : Byte) (held : Bool) :
    (resetBlock busy err drIn held s).draws = s.draws := rfl
@[simp] theorem resetBlock_readOut (busy err : Bool) (drIn : Byte) (held : Bool) :
    (resetBlock busy err drIn held s).readOut = [] := rfl

/-! ### beforeTurn: the strobe is gone, the agenda or the draw counter moves, and nothing else -/

@[simp] theorem beforeTurn_engSeq : (beforeTurn s).engSeq = s.engSeq := by unfold beforeTurn; split <;> rfl
@[simp] theorem beforeTurn_engReq : (beforeTurn s).engReq = s.engReq := by unfold beforeTurn; split <;> rfl
@[simp] theorem beforeTurn_engStatus : (beforeTurn s).engStatus = s.engStatus := by unfold beforeTurn; split <;> rfl
@[simp] theorem beforeTurn_engResult : (beforeTurn s).engResult = s.engResult := by unfold beforeTurn; split <;> rfl
@[simp] theorem beforeTurn_rxbuf : (beforeTurn s).rxbuf = s.rxbuf := by unfold beforeTurn; split <;> rfl
@[simp] theorem beforeTurn_txbuf : (beforeTurn s).txbuf = s.txbuf := by unfold beforeTurn; split <;> rfl
@[simp] theorem beforeTurn_bcSa : (beforeTurn s).bcSa = s.bcSa := by unfold beforeTurn; split <;> rfl
@[simp] theorem beforeTurn_bcDrOut : (beforeTurn s).bcDrOut = s.bcDrOut := by unfold beforeTurn; split <;> rfl
@[simp] theorem beforeTurn_bcCmd : (beforeTurn s).bcCmd = none := by unfold beforeTurn; split <;> rfl
@[simp] theorem beforeTurn_bcBusy : (beforeTurn s).bcBusy = s.bcBusy := by unfold beforeTurn; split <;> rfl
@[simp] theorem beforeTurn_bcErr : (beforeTurn s).bcErr = s.bcErr := by unfold beforeTurn; split <;> rfl
@[simp] theorem beforeTurn_bcDrIn : (beforeTurn s).bcDrIn = s.bcDrIn := by unfold beforeTurn; split <;> rfl
@[simp] theorem beforeTurn_bcHeld : (beforeTurn s).bcHeld = s.bcHeld := by unfold beforeTurn; split <;> rfl
@[simp] theorem beforeTurn_busInFlight : (beforeTurn s).busInFlight = s.busInFlight := by unfold beforeTurn; split <;> rfl
@[simp] theorem beforeTurn_smpSeq : (beforeTurn s).smpSeq = s.smpSeq := by unfold beforeTurn; split <;> rfl
@[simp] theorem beforeTurn_sched : (beforeTurn s).sched = s.sched := by unfold beforeTurn; split <;> rfl
@[simp] theorem beforeTurn_smpPend : (beforeTurn s).smpPend = s.smpPend := by unfold beforeTurn; split <;> rfl
@[simp] theorem beforeTurn_sv : (beforeTurn s).sv = s.sv := by unfold beforeTurn; split <;> rfl
@[simp] theorem beforeTurn_kf : (beforeTurn s).kf = s.kf := by unfold beforeTurn; split <;> rfl
@[simp] theorem beforeTurn_ierr : (beforeTurn s).ierr = s.ierr := by unfold beforeTurn; split <;> rfl
@[simp] theorem beforeTurn_tvec : (beforeTurn s).tvec = s.tvec := by unfold beforeTurn; split <;> rfl
@[simp] theorem beforeTurn_torque : (beforeTurn s).torque = s.torque := by unfold beforeTurn; split <;> rfl
@[simp] theorem beforeTurn_cfg : (beforeTurn s).cfg = s.cfg := by unfold beforeTurn; split <;> rfl
@[simp] theorem beforeTurn_pwmWidth : (beforeTurn s).pwmWidth = s.pwmWidth := by unfold beforeTurn; split <;> rfl
@[simp] theorem beforeTurn_refusedMark : (beforeTurn s).refusedMark = s.refusedMark := by unfold beforeTurn; split <;> rfl
@[simp] theorem beforeTurn_faultMark : (beforeTurn s).faultMark = s.faultMark := by unfold beforeTurn; split <;> rfl
@[simp] theorem beforeTurn_resetAsserted : (beforeTurn s).resetAsserted = s.resetAsserted := by unfold beforeTurn; split <;> rfl
@[simp] theorem beforeTurn_params : (beforeTurn s).params = s.params := by unfold beforeTurn; split <;> rfl
@[simp] theorem beforeTurn_readOut : (beforeTurn s).readOut = s.readOut := by unfold beforeTurn; split <;> rfl

end Sys2Proof.Machine
end

