-- ==== Sys2Proof/Laws/Engine.lean ====
section
/-! SUPPORT. What the ENGINE's operations can do, said once: accept, issue, a client's request, the ENGINE's step. -/

namespace Sys2Proof.Machine

/-- Everything an accept that answers a next state has done. -/
theorem accept_next {op : EngOp} {dev : BitVec 7} {reg : Byte} {n : Nat} {w : Word} {s t : State}
    (h : accept op dev reg n w s = .next t) :
    s.engSeq = .idle ∧ 1 ≤ n ∧ n ≤ s.params.nmax ∧ (op = .writeBurst → allWritten s.txbuf n = true) ∧
      t = beginTxn op dev reg n w s := by
  unfold accept at h
  split at h
  · cases h
  · rename_i hi
    split at h
    · cases h
    · rename_i hn
      split at h
      · cases h
      · rename_i hw
        cases h
        refine ⟨hi, by omega, by omega, fun ho => ?_, rfl⟩
        simpa [ho] using hw

/-- When an accept answers a next state. -/
theorem accept_of_ready {op : EngOp} (dev : BitVec 7) (reg : Byte) {n : Nat} (w : Word) {s : State}
    (hi : s.engSeq = .idle) (h1 : 1 ≤ n) (h2 : n ≤ s.params.nmax)
    (hw : op = .writeBurst → allWritten s.txbuf n = true) :
    accept op dev reg n w s = .next (beginTxn op dev reg n w s) := by
  unfold accept
  rw [hi]
  simp only
  rw [if_neg (by omega), if_neg]
  rintro ⟨ho, hf⟩
  simp [hw ho] at hf

/-- Everything an issue that answers a next state has done. -/
theorem issueCmd_next {c : BusCmd} {s t : State} (h : issueCmd c s = .next t) :
    ∃ x dr, s.engSeq = .active x ∧ x.stage = .issue ∧ dueCmd x = c ∧ dueByte x s = .ok dr ∧
      t = toStage x x.k .postWait (busIssue (targetByte x.dev c.rs) dr c s) := by
  unfold issueCmd at h
  split at h
  · cases h
  · rename_i x hx
    split at h
    · rename_i hc
      split at h
      · cases h
      · rename_i dr hd
        cases h
        exact ⟨x, dr, hx, hc.1, hc.2, hd, rfl⟩
    · cases h

/-- When an issue answers a next state. -/
theorem issueCmd_of_due {s : State} {x : Txn} {dr : Option Byte} (hx : s.engSeq = .active x)
    (hg : x.stage = .issue) (hd : dueByte x s = .ok dr) :
    issueCmd (dueCmd x) s =
      .next (toStage x x.k .postWait (busIssue (targetByte x.dev (dueCmd x).rs) dr (dueCmd x) s)) := by
  unfold issueCmd
  simp [hx, hg, hd]

/-- Running the instruction of a bus command is the issue of the command. -/
theorem exec_instr (c : BusCmd) (s : State) : exec c.instr s = issueCmd c s := by
  cases c <;> rfl

/-- The ENGINE's step at ISSUE is the issue of the due command. -/
theorem engineTurn_at_issue {s : State} {x : Txn} (hx : s.engSeq = .active x) (hg : x.stage = .issue) :
    engineTurn exec s = issueCmd (dueCmd x) s := by
  unfold engineTurn
  simp only [hx, hg, exec_instr]

/-- Everything a step of the ENGINE that answers a next state has done. -/
theorem engineTurn_next {s t : State} (h : engineTurn exec s = .next t) :
    t = s ∨
    ∃ x, s.engSeq = .active x ∧
      ((x.stage = .preWait ∧ s.bcBusy = false ∧ t = toStage x x.k .issue s) ∨
       (x.stage = .issue ∧ ∃ dr, dueByte x s = .ok dr ∧
          t = toStage x x.k .postWait (busIssue (targetByte x.dev (dueCmd x).rs) dr (dueCmd x) s)) ∨
       (x.stage = .postWait ∧ s.bcBusy = false ∧ t = postWait x s)) := by
  cases hx : s.engSeq with
  | idle =>
    simp only [engineTurn, hx] at h
    cases h
    exact .inl rfl
  | active x =>
    cases hg : x.stage with
    | preWait =>
      simp only [engineTurn, hx, hg] at h
      split at h
      · cases h
        exact .inl rfl
      · rename_i hb
        cases h
        exact .inr ⟨x, rfl, .inl ⟨hg, eq_false_of_ne_true hb, rfl⟩⟩
    | issue =>
      rw [engineTurn_at_issue hx hg] at h
      obtain ⟨y, dr, hy, -, -, hd, rfl⟩ := issueCmd_next h
      cases hx.symm.trans hy
      exact .inr ⟨x, rfl, .inr (.inl ⟨hg, dr, hd, rfl⟩)⟩
    | postWait =>
      simp only [engineTurn, hx, hg] at h
      split at h
      · cases h
        exact .inl rfl
      · rename_i hb
        cases h
        exact .inr ⟨x, rfl, .inr (.inr ⟨hg, eq_false_of_ne_true hb, rfl⟩)⟩

/-- Everything the end of a wait can have done. -/
theorem postWait_cases (x : Txn) (s : State) :
    (s.bcErr = true ∧ postWait x s = busFail x s) ∨
    (s.bcErr = false ∧ x.k < x.n ∧ postWait x s = toStage x (x.k + 1) .preWait (capture x s)) ∨
    (s.bcErr = false ∧ x.n ≤ x.k ∧ postWait x s = completeTxn x (capture x s)) := by
  unfold postWait
  cases s.bcErr with
  | true => exact .inl ⟨rfl, rfl⟩
  | false =>
    by_cases h : x.k < x.n
    · exact .inr (.inl ⟨rfl, h, by simp [h]⟩)
    · exact .inr (.inr ⟨rfl, by omega, by simp [h]⟩)

/-- What a step of the ENGINE leaves as it was: the SAMPLER's, CONTROL's and the HOST's state, TXBUF and the parameters, and
BUSCTL's inputs but for a rise of BC_BUSY (10 R16). -/
theorem engineTurn_frame {s t : State} (h : engineTurn exec s = .next t) :
    t.sv = s.sv ∧ t.sched = s.sched ∧ t.smpSeq = s.smpSeq ∧ t.smpPend = s.smpPend ∧ t.kf = s.kf ∧ t.ierr = s.ierr ∧
      t.tvec = s.tvec ∧ t.pwmWidth = s.pwmWidth ∧ t.torque = s.torque ∧ t.cfg = s.cfg ∧ t.params = s.params ∧
      t.txbuf = s.txbuf ∧ t.bcErr = s.bcErr ∧ t.bcDrIn = s.bcDrIn ∧ (s.bcBusy = true → t.bcBusy = true) := by
  rcases engineTurn_next h with rfl | ⟨x, _, ⟨_, _, rfl⟩ | ⟨_, dr, _, rfl⟩ | ⟨_, hb, rfl⟩⟩
  · simp
  · simp
  · simp
  · rcases postWait_cases x s with ⟨_, h⟩ | ⟨_, _, h⟩ | ⟨_, _, h⟩ <;> rw [h] <;> simp

/-- A request word decodes to one of the four requests. -/
theorem decodeReq_ok {w : Word} {i : Instr} (h : decode (.req w) = .ok i) :
    (∃ dev reg, i = .rdb dev reg) ∨ (∃ dev reg d, i = .wrb dev reg d) ∨
    (∃ dev reg n, i = .rdn dev reg n) ∨ (∃ dev reg n, i = .wrn dev reg n) := by
  simp only [decode, decodeWith, decodeReq] at h
  repeat' split at h
  all_goals try cases h
  · exact .inl ⟨_, _, rfl⟩
  · exact .inr (.inl ⟨_, _, _, rfl⟩)
  · exact .inr (.inr (.inl ⟨_, _, _, rfl⟩))
  · exact .inr (.inr (.inr ⟨_, _, _, rfl⟩))

/-- A client's request that answers a next state has begun an operation within bounds. -/
theorem submit_next {w : Word} {s t : State} (h : submit exec w s = .next t) :
    s.engSeq = .idle ∧ ∃ op dev reg n w', 1 ≤ n ∧ n ≤ s.params.nmax ∧
      (op = .readByte ∨ op = .writeByte → n = 1) ∧ (op = .writeBurst → allWritten s.txbuf n = true) ∧
      t = beginTxn op dev reg n w' s := by
  unfold submit at h
  split at h
  · cases h
  · rename_i hs
    split at h
    · rename_i i hi
      refine ⟨hs, ?_⟩
      rcases decodeReq_ok hi with ⟨dev, reg, rfl⟩ | ⟨dev, reg, d, rfl⟩ | ⟨dev, reg, n, rfl⟩ | ⟨dev, reg, n, rfl⟩ <;>
        obtain ⟨-, h1, h2, h3, rfl⟩ := accept_next h
      · exact ⟨_, _, _, _, _, h1, h2, fun _ => rfl, h3, rfl⟩
      · exact ⟨_, _, _, _, _, h1, h2, fun _ => rfl, h3, rfl⟩
      · exact ⟨_, _, _, _, _, h1, h2, by simp, h3, rfl⟩
      · exact ⟨_, _, _, _, _, h1, h2, by simp, h3, rfl⟩
    · cases h

/-- The request words the SAMPLER writes decode to what they are meant as (30 R70). -/
theorem decode_initWord (p : Params) (q : Sensor) :
    decode (.req (initWord p q)) = .ok (.wrb (p.dev.get q) (p.initReg.get q) (p.initVal.get q)) := by
  simp [decode, decodeWith, decodeReq, initWord]

theorem decode_readWord (p : Params) (q : Sensor) :
    decode (.req (readWord p q)) = .ok (.rdn (p.dev.get q) (p.regOut.get q) 6#8) := by
  simp [decode, decodeWith, decodeReq, readWord]

/-- The SAMPLER's init request is accepted by an idle ENGINE (41 R91). -/
theorem submit_initWord {s : State} (hi : s.engSeq = .idle) (p : Params) (q : Sensor) :
    submit exec (initWord p q) s =
      .next (beginTxn .writeByte (p.dev.get q) (p.initReg.get q) 1 (initWord p q) s) := by
  unfold submit
  rw [hi]
  simp only [decode_initWord]
  exact accept_of_ready _ _ _ hi (le_refl 1) (by unfold Params.nmax; omega) (by simp)

/-- The SAMPLER's read request is accepted by an idle ENGINE (41 R94). -/
theorem submit_readWord {s : State} (hi : s.engSeq = .idle) (p : Params) (q : Sensor) :
    submit exec (readWord p q) s =
      .next (beginTxn .readBurst (p.dev.get q) (p.regOut.get q) 6 (readWord p q) s) := by
  unfold submit
  rw [hi]
  simp only [decode_readWord]
  exact accept_of_ready _ _ _ hi (by decide) (by simp [Params.nmax]) (by simp)

end Sys2Proof.Machine
end

