-- ==== Sys2Proof/Laws/Float.lean ====
section
/-! SUPPORT. The word a reader sees of a binary32 datum stands for that datum (00_scope.md R13, 60_exceptions.md R136). -/

namespace Sys2Proof.Machine

/-- A word with exponent all ones and a fraction that is not 0 is a NaN. -/
theorem f32OfBits_nan {w : Word} (he : w.extractLsb' 23 8 = 0xFF#8) (hf : w &&& 0x007FFFFF#32 ≠ 0#32) :
    f32OfBits w = .nan := by
  have e : w.toNat / 2 ^ 23 % 2 ^ 8 = 255 := by
    simpa [Nat.shiftRight_eq_div_pow] using congrArg BitVec.toNat he
  have f : w.toNat % 2 ^ 23 ≠ 0 := by
    intro h
    apply hf
    apply BitVec.eq_of_toNat_eq
    have := Nat.and_two_pow_sub_one_eq_mod w.toNat 23
    rw [h] at this
    simpa using this
  unfold f32OfBits
  rw [dif_neg]
  simp only [F32.magBound]
  omega

/-- The word of a NaN is a NaN. -/
theorem f32OfBits_nanWord (f : Word) : f32OfBits (nanWord f) = .nan := by
  have he : (f ||| 0x7F800000#32).extractLsb' 23 8 = 0xFF#8 := by
    rw [BitVec.extractLsb'_or]
    apply BitVec.eq_of_getLsbD_eq
    intro i hi
    interval_cases i <;> simp
  unfold nanWord
  simp only
  split
  · rename_i h
    apply f32OfBits_nan
    · rw [BitVec.extractLsb'_or, he]; decide
    · intro hc
      have := congrArg (fun v => BitVec.getLsbD v 0) hc
      simp at this
  · exact f32OfBits_nan he ‹_›

/-- The word of a datum, read back, is the datum. -/
@[simp] theorem f32OfBits_f32Word (p : Word) (a : F32) : f32OfBits (f32Word p a) = a := by
  cases a with
  | nan => exact f32OfBits_nanWord p
  | num neg m =>
    have hm : m.val < 0x7F800001 := m.isLt
    have hw : (f32Word p (.num neg m)).toNat = (if neg then 2 ^ 31 else 0) + m.val := by
      simp only [f32Word, BitVec.toNat_ofNat]
      split <;> omega
    unfold f32OfBits
    rw [dif_pos (by simp only [F32.magBound]; rw [hw]; split <;> omega)]
    congr 1
    · rw [BitVec.msb_eq_decide, hw]
      cases neg <;> simp
      omega
    · apply Fin.ext
      simp only [hw]
      split <;> omega

/-- The words of a list of data, read back, are the data. -/
@[simp] theorem map_f32OfBits_f32Words (d : Nat) (l : List F32) : (f32Words d l).map f32OfBits = l := by
  induction l generalizing d with
  | nil => rfl
  | cons a l ih => simp [f32Words, ih]

end Sys2Proof.Machine
end

