-- ==== Sys2Proof/Laws/PerInstr.lean ====
section
/-! SUPPORT. The family RowMatch: an instruction's encoding carries the fixed bits of its row of the opcode table. -/

namespace Sys2Proof.Laws.RowMatch

/-- Match and mask of the row of spec/opcode_table.json an instruction belongs to. -/
def row : Instr → Nat × Nat
  | .rdb _ _ => (0x00000000, 0xFF0080FF)
  | .wrb _ _ _ => (0x00000001, 0x000080FF)
  | .rdn _ _ _ => (0x00000002, 0x000080FF)
  | .wrn _ _ _ => (0x00000003, 0x000080FF)
  | .burstSendStart => (0x03, 0x1F)
  | .burstSendCont => (0x01, 0x1F)
  | .burstSendFinish => (0x05, 0x1F)
  | .singleReceive => (0x17, 0x1F)
  | .burstReceiveStart => (0x1B, 0x1F)
  | .burstReceiveCont => (0x19, 0x1F)
  | .burstReceiveFinish => (0x15, 0x1F)
  | .tickS => (0b001, 0b111)
  | .tickC => (0b010, 0b111)
  | .torq _ => (0b011, 0b111)
  | .cfg _ => (0b100, 0b111)

/-- The wire's selecting bits under a mask are those of the match (30 R66). -/
def carries (x : Wire) (r : Nat × Nat) : Prop :=
  match x with
  | .req w => w &&& BitVec.ofNat 32 r.2 = BitVec.ofNat 32 r.1
  | .cmd k => k &&& BitVec.ofNat 5 r.2 = BitVec.ofNat 5 r.1
  | .event ev _ => ev &&& BitVec.ofNat 3 r.2 = BitVec.ofNat 3 r.1

/-- The encoding of an instruction carries its row's fixed bits. -/
def Statement (i : Instr) : Prop := carries (encode i) (row i)

theorem reqWord_mask (arg reg : Byte) (dev : BitVec 7) (op : BitVec 2) :
    reqWord arg reg dev op &&& 0x000080FF#32 = op.setWidth 32 := by
  unfold reqWord
  ext i hi
  rw [BitVec.getElem_and, ← BitVec.getLsbD_eq_getElem hi, ← BitVec.getLsbD_eq_getElem hi]
  simp only [BitVec.getLsbD_append, BitVec.getElem_setWidth]
  interval_cases i <;> simp

theorem rdb (dev : BitVec 7) (reg : Byte) : Statement (.rdb dev reg) := by
  show reqWord 0#8 reg dev 0b00#2 &&& 0xFF0080FF#32 = 0x00000000#32
  unfold reqWord
  ext i hi
  rw [BitVec.getElem_and, ← BitVec.getLsbD_eq_getElem hi]
  simp only [BitVec.getLsbD_append]
  interval_cases i <;> simp

theorem wrb (dev : BitVec 7) (reg data : Byte) : Statement (.wrb dev reg data) := reqWord_mask ..
theorem rdn (dev : BitVec 7) (reg n : Byte) : Statement (.rdn dev reg n) := reqWord_mask ..
theorem wrn (dev : BitVec 7) (reg n : Byte) : Statement (.wrn dev reg n) := reqWord_mask ..
theorem burstSendStart : Statement .burstSendStart := rfl
theorem burstSendCont : Statement .burstSendCont := rfl
theorem burstSendFinish : Statement .burstSendFinish := rfl
theorem singleReceive : Statement .singleReceive := rfl
theorem burstReceiveStart : Statement .burstReceiveStart := rfl
theorem burstReceiveCont : Statement .burstReceiveCont := rfl
theorem burstReceiveFinish : Statement .burstReceiveFinish := rfl
theorem tickS : Statement .tickS := by simp [Statement, carries, row, encode, encodeWith]
theorem tickC : Statement .tickC := by simp [Statement, carries, row, encode, encodeWith]
theorem torq (v : Word) : Statement (.torq v) := by simp [Statement, carries, row, encode, encodeWith]
theorem cfg (v : Word) : Statement (.cfg v) := by simp [Statement, carries, row, encode, encodeWith]

end Sys2Proof.Laws.RowMatch
end

