-- ==== Sys2Proof/Laws/Runs.lean ====
section
/-! SUPPORT. The end and the hang of a run (70_reset_and_hazards.md R146). -/

namespace Sys2Proof.Machine

/-- Once the last event is over it stays over. -/
theorem EventsOverAt.mono {run : Nat → RunSoFar} {i j : Nat} (h : EventsOverAt run i) (hij : i ≤ j) :
    EventsOverAt run j := fun k hk => h k (hij.trans hk)

/-- No run both ends and hangs. -/
theorem EndsAt.not_hangs {run : Nat → RunSoFar} {i : Nat} (h : EndsAt run i) : ¬ Hangs run := by
  intro hh
  have he := h.2
  simp [RunSoFar.ended, hh.1 i h.1] at he

/-- Where the events come to an end, a hang is a run that never meets conditions 1 to 4 after the last of them. -/
theorem EventsOverAt.hangs_iff {run : Nat → RunSoFar} {i : Nat} (h : EventsOverAt run i) :
    Hangs run ↔ ∀ j, EventsOverAt run j → (run j).state.quiet = false :=
  ⟨And.left, fun hq => ⟨hq, i, fun j hij => hq j (h.mono hij)⟩⟩

end Sys2Proof.Machine
end

