-- ==== Sys2Proof/Laws/Turns.lean ====
section
/-! SUPPORT. What the SAMPLER, the environment and a step can do, said once. -/

namespace Sys2Proof.Machine

/-- The SAMPLER's request, when it is accepted: an operation has begun and SMP_SEQ has moved. -/
theorem samplerRequest_next {w : Word} {g : SmpSeq} {s t : State} (h : samplerRequest exec w g s = .next t) :
    s.engSeq = .idle ∧ ∃ op dev reg n w', 1 ≤ n ∧ n ≤ s.params.nmax ∧
      (op = .readByte ∨ op = .writeByte → n = 1) ∧ (op = .writeBurst → allWritten s.txbuf n = true) ∧
      t = { beginTxn op dev reg n w' s with smpSeq := g } := by
  unfold samplerRequest at h
  split at h
  · rename_i s' hs
    cases h
    obtain ⟨hi, op, dev, reg, n, w', h1, h2, h3, h4, rfl⟩ := submit_next hs
    exact ⟨hi, op, dev, reg, n, w', h1, h2, h3, h4, rfl⟩
  · cases h
  · cases h

/-- One sensor's entry after a write of one sensor's entry. -/
theorem PerSensor.get_set {α : Type} (p : PerSensor α) (q q' : Sensor) (v : α) :
    (p.set q v).get q' = if q' = q then v else p.get q' := by
  cases q <;> cases q' <;> rfl

/-- The smoothing works on each component by itself (41 R95). The proof rewrites: a `rfl` would make the kernel unfold the
arithmetic of `smooth`. -/
theorem smoothVec_get (v : Vec3 F32) (r : Vec3 (BitVec 16)) (c : Comp) :
    (smoothVec v r).get c = smooth (v.get c) (r.get c) := by
  cases c <;> rw [Vec3.get, Vec3.get, Vec3.get, smoothVec]

/-- The raw sample of six received bytes (41 R95). -/
theorem sampleRaw_of_bytes {s : State} (q : Sensor) {b0 b1 b2 b3 b4 b5 : Byte}
    (h0 : memRead s.rxbuf 0 = some (.byte b0)) (h1 : memRead s.rxbuf 1 = some (.byte b1))
    (h2 : memRead s.rxbuf 2 = some (.byte b2)) (h3 : memRead s.rxbuf 3 = some (.byte b3))
    (h4 : memRead s.rxbuf 4 = some (.byte b4)) (h5 : memRead s.rxbuf 5 = some (.byte b5)) :
    sampleRaw q s = some (decodeSample (s.params.axisOrder.get q) b0 b1 b2 b3 b4 b5) := by
  unfold sampleRaw rxByte
  simp only [h0, h1, h2, h3, h4, h5]
  rfl

/-- A sample finish whose transaction did not fail and whose bytes are there (41 R95). -/
theorem sampleFinish_of_raw {s : State} {q : Sensor} {raw : Vec3 (BitVec 16)}
    (hf : statusFail s.engStatus = false) (hr : sampleRaw q s = some raw) :
    sampleFinish q s = .next
      (sampleEnd q { s with sv := s.sv.set q (smoothVec (s.sv.get q) raw), draws := s.draws + 6 }) := by
  unfold sampleFinish
  rw [hf, hr]
  simp

/-- Everything a sample finish that answers a next state has done. -/
theorem sampleFinish_next {q : Sensor} {s t : State} (h : sampleFinish q s = .next t) :
    (statusFail s.engStatus = true ∧ t = sampleEnd q s) ∨
    (statusFail s.engStatus = false ∧ ∃ raw, sampleRaw q s = some raw ∧
      t = sampleEnd q { s with sv := s.sv.set q (smoothVec (s.sv.get q) raw), draws := s.draws + 6 }) := by
  unfold sampleFinish at h
  split at h
  · cases h
    exact .inl ⟨‹_›, rfl⟩
  · rename_i hf
    split at h
    · cases h
    · rename_i raw hr
      cases h
      exact .inr ⟨eq_false_of_ne_true hf, raw, hr, rfl⟩

/-- What a step of the SAMPLER may do, by the kind of state it starts from. -/
inductive SamplerStep (s : State) : State → Prop where
  /-- A held step, or no step to take. -/
  | stay : SamplerStep s s
  /-- A request, at boot or at the start of a sample. -/
  | request (p : Bool) (g : SmpSeq) (op : EngOp) (dev : BitVec 7) (reg : Byte) (n : Nat) (w : Word)
      (idle : s.engSeq = .idle) (lo : 1 ≤ n) (hi : n ≤ s.params.nmax)
      (one : op = .readByte ∨ op = .writeByte → n = 1) (bytes : op = .writeBurst → allWritten s.txbuf n = true) :
      SamplerStep s { beginTxn op dev reg n w { s with smpPend := p } with smpSeq := g }
  /-- The end of a boot wait. -/
  | booted (q : Sensor) (at_ : s.smpSeq = .bootWait q) (done : statusDone s.engStatus = true) :
      SamplerStep s { s with smpSeq := bootNext q }
  /-- The end of a sample that failed. -/
  | failed (q : Sensor) (at_ : s.smpSeq = .sampling q) (done : statusDone s.engStatus = true)
      (fail : statusFail s.engStatus = true) : SamplerStep s (sampleEnd q s)
  /-- The end of a sample that was read. -/
  | read (q : Sensor) (raw : Vec3 (BitVec 16)) (at_ : s.smpSeq = .sampling q)
      (done : statusDone s.engStatus = true) (ok : statusFail s.engStatus = false)
      (raws : sampleRaw q s = some raw) :
      SamplerStep s
        (sampleEnd q { s with sv := s.sv.set q (smoothVec (s.sv.get q) raw), draws := s.draws + 6 })

/-- Everything a step of the SAMPLER that answers a next state has done. -/
theorem samplerTurn_next {s t : State} (h : samplerTurn exec s = .next t) : SamplerStep s t := by
  unfold samplerTurn at h
  split at h
  · rename_i q hq
    obtain ⟨hi, op, dev, reg, n, w, h1, h2, h3, h4, rfl⟩ := samplerRequest_next h
    exact .request s.smpPend _ op dev reg n w hi h1 h2 h3 h4
  · rename_i q hq
    split at h <;> cases h
    · exact .booted q hq ‹_›
    · exact .stay
  · rename_i hq
    split at h
    · obtain ⟨hi, op, dev, reg, n, w, h1, h2, h3, h4, rfl⟩ := samplerRequest_next h
      exact .request false _ op dev reg n w hi h1 h2 h3 h4
    · cases h
      exact .stay
  · rename_i q hq
    split at h
    · rename_i hd
      rcases sampleFinish_next h with ⟨hf, rfl⟩ | ⟨hf, raw, hr, rfl⟩
      · exact .failed q hq hd hf
      · exact .read q raw hq hd hf hr
    · cases h
      exact .stay

/-- The event port, by the decoded event. -/
theorem eventTurn_next {ev : BitVec 3} {v : Word} {s t : State} (h : eventTurn exec ev v s = .next t) :
    (ev = 0b000#3 ∧ t = s) ∨ (ev = 0b001#3 ∧ t = { s with smpPend := true }) ∨
    (ev = 0b010#3 ∧ t = controlTickWith (measurements s) s) ∨ (ev = 0b011#3 ∧ t = { s with torque := v }) ∨
    (ev = 0b100#3 ∧ t = { s with cfg := cfgOperand v }) := by
  unfold eventTurn decode decodeWith decodeEvent at h
  by_cases h0 : ev = 0b000#3
  · simp only [h0, if_pos] at h
    cases h
    exact .inl ⟨h0, rfl⟩
  by_cases h1 : ev = 0b001#3
  · subst h1
    cases h
    exact .inr (.inl ⟨rfl, rfl⟩)
  by_cases h2 : ev = 0b010#3
  · subst h2
    cases h
    exact .inr (.inr (.inl ⟨rfl, rfl⟩))
  by_cases h3 : ev = 0b011#3
  · subst h3
    cases h
    exact .inr (.inr (.inr (.inl ⟨rfl, rfl⟩)))
  by_cases h4 : ev = 0b100#3
  · subst h4
    cases h
    exact .inr (.inr (.inr (.inr ⟨rfl, rfl⟩)))
  · simp only [h0, h1, h2, h3, h4, if_false] at h
    cases h

/-- A completion needs BC_BUSY = 1 and writes BUSCTL's inputs, its own state and the draw counter alone. -/
theorem busComplete_next {err held : Bool} {b : Byte} {s t : State} (h : busComplete err b held s = .next t) :
    s.bcBusy = true ∧ t = { s with
      bcBusy := false
      bcErr := err
      bcDrIn := drInAfter s.busInFlight err b s.bcDrIn
      bcHeld := heldAfterCompletion s.busInFlight err held
      busInFlight := none
      draws := s.draws + 1 } := by
  unfold busComplete at h
  split at h
  · cases h
    exact ⟨‹_›, rfl⟩
  · cases h

/-- A HOST read gives words back and may draw; nothing else changes (20 R48). -/
theorem hostRead_next {r : ReadTarget} {s t : State} (h : hostRead r s = .next t) :
    ∃ d l, t = { s with readOut := l, draws := d } := by
  cases r <;> simp only [hostRead] at h
  case tvec => split at h <;> cases h; exact ⟨_, _, rfl⟩
  case pwmWidth => split at h <;> cases h; exact ⟨_, _, rfl⟩
  case tvecAll => split at h <;> cases h; exact ⟨_, _, rfl⟩
  case pwmWidthAll => split at h <;> cases h; exact ⟨_, _, rfl⟩
  all_goals
    cases h
    exact ⟨_, _, rfl⟩

/-- A BUSCTL read gives a word back; nothing else changes. -/
theorem busRead_next {p : BusPort} {s t : State} (h : busRead p s = .next t) :
    ∃ l, t = { s with readOut := l } := by
  unfold busRead at h
  split at h <;> cases h
  exact ⟨_, rfl⟩

/-- A client's read of RXBUF gives a word back and draws; nothing else changes. -/
theorem clientRxb_next {j : Nat} {s t : State} (h : clientRxb j s = .next t) :
    j < s.params.nmax ∧ ∃ l, t = { s with readOut := l, draws := s.draws + 1 } := by
  unfold clientRxb at h
  split at h
  · cases h
  · split at h <;> cases h
    exact ⟨by omega, _, rfl⟩

/-- A client's reading of what its request came to gives two words back, or holds; nothing else changes. -/
theorem clientCollect_next {s t : State} (h : clientCollect s = .next t) :
    t = s ∨ statusDone s.engStatus = true ∧ t = { s with readOut := [statusOut s, resultOut s] } := by
  unfold clientCollect at h
  split at h <;> cases h
  · exact .inr ⟨‹_›, rfl⟩
  · exact .inl rfl

/-- A client's write of TXBUF happens while the ENGINE is not busy, at an index that exists. -/
theorem clientTxb_next {j : Nat} {b : Byte} {s t : State} (h : clientTxb j b s = .next t) :
    statusEbusy s.engStatus = false ∧ j < s.params.nmax ∧ t = { s with txbuf := memWrite s.txbuf j b } := by
  unfold clientTxb at h
  split at h
  · cases h
  · split at h
    · cases h
    · cases h
      exact ⟨eq_false_of_ne_true ‹_›, by omega, rfl⟩

/-- What a turn that answers a next state may have done, agent by agent. -/
inductive TurnStep (s : State) : Turn → State → Prop where
  /-- No step: reset is asserted, a hold, or no event. -/
  | stay (u : Turn) : TurnStep s u s
  | engine (t : State) (free : s.resetAsserted = false) (h : engineTurn exec s = .next t) : TurnStep s (.sys .engine) t
  | sampler (t : State) (free : s.resetAsserted = false) (h : samplerTurn exec s = .next t) :
      TurnStep s (.sys .sampler) t
  | complete (err : Bool) (b : Byte) (held : Bool) (t : State) (h : busComplete err b held s = .next t) :
      TurnStep s (.sys (.complete err b held)) t
  | tickS (v : Word) (free : s.resetAsserted = false) :
      TurnStep s (.sys (.event 0b001#3 v)) { s with smpPend := true }
  | tickC (v : Word) (free : s.resetAsserted = false) :
      TurnStep s (.sys (.event 0b010#3 v)) (controlTickWith (measurements s) s)
  | torq (v : Word) (free : s.resetAsserted = false) : TurnStep s (.sys (.event 0b011#3 v)) { s with torque := v }
  | cfg (v : Word) (free : s.resetAsserted = false) :
      TurnStep s (.sys (.event 0b100#3 v)) { s with cfg := cfgOperand v }
  | hostRead (r : ReadTarget) (l : List Word) (d : Nat) :
      TurnStep s (.sys (.hostRead r)) { s with readOut := l, draws := d }
  | busRead (p : BusPort) (l : List Word) : TurnStep s (.sys (.busRead p)) { s with readOut := l }
  | assertReset : TurnStep s (.sys .assertReset) { s with resetAsserted := true }
  | releaseReset (busy err : Bool) (b : Byte) (held : Bool) (asserted : s.resetAsserted = true) :
      TurnStep s (.sys (.releaseReset busy err b held)) (resetBlock busy err b held s)
  | request (w : Word) (t : State) (free : s.resetAsserted = false) (h : submit exec w s = .next t) :
      TurnStep s (.client (.request w)) t
  | txb (j : Nat) (b : Byte) (free : s.resetAsserted = false) (notBusy : statusEbusy s.engStatus = false)
      (below : j < s.params.nmax) :
      TurnStep s (.client (.txb j b)) { s with txbuf := memWrite s.txbuf j b }
  | rxb (j : Nat) (l : List Word) (free : s.resetAsserted = false) (below : j < s.params.nmax) :
      TurnStep s (.client (.rxb j)) { s with readOut := l, draws := s.draws + 1 }
  /-- A client's read of ENG_STATUS, of ENG_RESULT, or of both. -/
  | readEngine (c : ClientTurn) (l : List Word) (free : s.resetAsserted = false) :
      TurnStep s (.client c) { s with readOut := l }

/-- Everything a turn that answers a next state has done. -/
theorem takeTurn_next {u : Turn} {s t : State} (h : takeTurn exec u s = .next t) : TurnStep s u t := by
  cases hr : s.resetAsserted with
  | true =>
    rcases u with (_ | _ | _ | _ | _ | _ | _ | _ | _ | _ | _) | (_ | _ | _ | _ | _ | _) <;>
      simp only [takeTurn, sysTurn, clientTurn, hr, if_true] at h
    case sys.complete => exact .complete _ _ _ _ h
    case sys.busRead => obtain ⟨l, rfl⟩ := busRead_next h; exact .busRead _ l
    case sys.hostRead => obtain ⟨d, l, rfl⟩ := hostRead_next h; exact .hostRead _ l d
    case sys.releaseReset =>
      simp only [releaseReset, hr, if_true] at h
      cases h
      exact .releaseReset _ _ _ _ hr
    case sys.assertReset => cases h; exact .assertReset
    all_goals
      cases h
      try exact .stay _
  | false =>
    rcases u with (_ | _ | _ | _ | _ | ⟨ev, v⟩ | _ | _ | _ | _ | _) | (_ | _ | _ | _ | _ | _) <;>
      simp only [takeTurn, sysTurn, clientTurn, hr, Bool.false_eq_true, if_false] at h
    case sys.engine => exact .engine _ hr h
    case sys.sampler => exact .sampler _ hr h
    case sys.complete => exact .complete _ _ _ _ h
    case sys.busRead => obtain ⟨l, rfl⟩ := busRead_next h; exact .busRead _ l
    case sys.hostRead => obtain ⟨d, l, rfl⟩ := hostRead_next h; exact .hostRead _ l d
    case sys.releaseReset =>
      simp only [releaseReset, hr, Bool.false_eq_true, if_false] at h
      cases h
    case sys.assertReset => cases h; exact .assertReset
    case sys.event =>
      rcases eventTurn_next h with ⟨rfl, rfl⟩ | ⟨rfl, rfl⟩ | ⟨rfl, rfl⟩ | ⟨rfl, rfl⟩ | ⟨rfl, rfl⟩
      · exact .stay _
      · exact .tickS _ hr
      · exact .tickC _ hr
      · exact .torq _ hr
      · exact .cfg _ hr
    case client.request => exact .request _ _ hr h
    case client.txb => obtain ⟨h1, h2, rfl⟩ := clientTxb_next h; exact .txb _ _ hr h1 h2
    case client.rxb => obtain ⟨h1, l, rfl⟩ := clientRxb_next h; exact .rxb _ l hr h1
    case client.status => cases h; exact .readEngine _ _ hr
    case client.result => cases h; exact .readEngine _ _ hr
    case client.collect =>
      rcases clientCollect_next h with rfl | ⟨-, rfl⟩
      · exact .stay _
      · exact .readEngine _ _ hr
    all_goals cases h

/-- Everything a step that answers a next state has done: its turn, taken in the state `beforeTurn s`. -/
theorem step_next {s t : State} (h : step s = .next t) : TurnStep (beforeTurn s) (nextTurn s) t :=
  takeTurn_next h

/-- The turn of a step that has an agenda. -/
theorem nextTurn_cons {s : State} {u : Turn} {rest : List Turn} (h : s.agenda = u :: rest) : nextTurn s = u := by
  unfold nextTurn
  rw [h]

/-- The state in which the turn of a step that has an agenda is taken. -/
theorem beforeTurn_cons {s : State} {u : Turn} {rest : List Turn} (h : s.agenda = u :: rest) :
    beforeTurn s = { s with bcCmd := none, agenda := rest } := by
  unfold beforeTurn
  rw [h]

/-- What making room for a turn leaves as it was. -/
theorem beforeTurn_eq (s : State) :
    ∃ a d, beforeTurn s = { s with bcCmd := none, agenda := a, draws := d } := by
  unfold beforeTurn
  split
  · exact ⟨s.agenda, _, rfl⟩
  · exact ⟨_, _, rfl⟩

end Sys2Proof.Machine
end

