-- ==== Sys2Proof/Tests/Slice0.lean ====
section
/-! SUPPORT. The model's own tests. Expected results are the spec's: 30_encoding.md's tables written out bit by bit and the
vectors of 95_test_vectors.md; the source of each stands in its comment. After them, for every statement with hypotheses, a
witness: a concrete state and operands that meet them together. -/

namespace Sys2Proof.Tests

open Sys2Proof.Machine

/-- Configuration EX of 95 section 1, without the measurement functions, which stay open. -/
def exParams : Params where
  nmaxOver6 := 0
  dev := ⟨0x68#7, 0x69#7, 0x1E#7⟩
  regOut := ⟨0x3B#8, 0x43#8, 0x03#8⟩
  initReg := ⟨0x6B#8, 0x1B#8, 0x02#8⟩
  initVal := ⟨0x00#8, 0x18#8, 0x00#8⟩
  axisOrder := ⟨.xyz, .xyz, .xyz⟩
  gyroSens := f32One
  gyroAxis := ⟨.x, .y, .z⟩
  pwmBaseOver1 := 999
  mixEnReset := false
  cmdEnc := CmdEnc.standard
  sampleHz := 600
  controlHz := 100
  regPlacement := []

/-- Reset under EX. -/
def ex : State := { State.reset with params := exParams, cfg := 0#32 }

/-- `s` with one turn to take. -/
def withTurn (u : Turn) (s : State) : State := { s with agenda := [u] }

/-- `s` with the ENGINE in a transaction, busy as 95 section 3.2 says. -/
def inTxn (t : Txn) (s : State) : State := { s with engSeq := .active t, engStatus := 0x01#8, engReq := some 0#32 }

/-- The outcome is a next state with a property. -/
def nexts (r : Result) (p : State → Bool) : Bool :=
  match r with
  | .next t => p t
  | .fault _ => false
  | .refused _ => false

/-- The outcome is a given fault. -/
def faults (r : Result) (f : Fault) : Bool :=
  match r with
  | .next _ => false
  | .fault g => decide (g = f)
  | .refused _ => false

/-- The outcome is a given refusal. -/
def refuses (r : Result) (f : Refusal) : Bool :=
  match r with
  | .next _ => false
  | .fault _ => false
  | .refused g => decide (g = f)

/-! ### WellFormed: one ill-formed term for each check (30 R67 item 3, 95 section 3.1) -/

theorem test_rdn_zero_illformed : (Instr.rdn 0x68#7 0x3B#8 0#8).wellFormed 6 = false := by decide
theorem test_rdn_over_illformed : (Instr.rdn 0x68#7 0x3B#8 7#8).wellFormed 6 = false := by decide
theorem test_wrn_zero_illformed : (Instr.wrn 0x1E#7 0x00#8 0#8).wellFormed 6 = false := by decide
theorem test_wrn_over_illformed : (Instr.wrn 0x1E#7 0x00#8 7#8).wellFormed 6 = false := by decide
theorem test_rdn_nmax_wellformed : (Instr.rdn 0x68#7 0x3B#8 6#8).wellFormed 6 = true := by decide
/-- The accept applies the same check (30 R67 item 3). -/
theorem test_counts_refused :
    refuses (step (withTurn (.client (.request 0x003B6802#32)) ex)) .reqIllegal = true ∧
    refuses (step (withTurn (.client (.request 0x073B6802#32)) ex)) .reqIllegal = true := by decide +kernel

/-! ### Decode: words written out from 30 R60, R61 and R63 -/

/-- `RDB 0x68, 0x75`: ARG 0, REG 0x75, 0, DEV 0x68, 000000, OP 00. -/
theorem test_decode_rdb : decode (.req 0b00000000_01110101_0_1101000_000000_00#32) = .ok (.rdb 0x68#7 0x75#8) := by decide
/-- `WRB 0x69, 0x1B, 0x18`. -/
theorem test_decode_wrb :
    decode (.req 0b00011000_00011011_0_1101001_000000_01#32) = .ok (.wrb 0x69#7 0x1B#8 0x18#8) := by decide
/-- `RDN 0x68, 0x3B, 6`. -/
theorem test_decode_rdn :
    decode (.req 0b00000110_00111011_0_1101000_000000_10#32) = .ok (.rdn 0x68#7 0x3B#8 6#8) := by decide
/-- `WRN 0x1E, 0x00, 2`. -/
theorem test_decode_wrn :
    decode (.req 0b00000010_00000000_0_0011110_000000_11#32) = .ok (.wrn 0x1E#7 0x00#8 2#8) := by decide
/-- Keys {rs, ACK, STOP, START, RUN} of 30 R61. -/
theorem test_decode_sends :
    decode (.cmd 0b0_0_0_1_1#5) = .ok .burstSendStart ∧ decode (.cmd 0b0_0_0_0_1#5) = .ok .burstSendCont ∧
    decode (.cmd 0b0_0_1_0_1#5) = .ok .burstSendFinish := by decide
theorem test_decode_receives :
    decode (.cmd 0b1_0_1_1_1#5) = .ok .singleReceive ∧ decode (.cmd 0b1_1_0_1_1#5) = .ok .burstReceiveStart ∧
    decode (.cmd 0b1_1_0_0_1#5) = .ok .burstReceiveCont ∧ decode (.cmd 0b1_0_1_0_1#5) = .ok .burstReceiveFinish := by decide
/-- Event codes of 30 R63. -/
theorem test_decode_events :
    decode (.event 0b001#3 0x12345678#32) = .ok .tickS ∧ decode (.event 0b010#3 0#32) = .ok .tickC ∧
    decode (.event 0b011#3 0x00000041#32) = .ok (.torq 65#32) ∧
    decode (.event 0b100#3 0xFFFFFFFE#32) = .ok (.cfg 0xFFFFFFFE#32) := by decide
/-- 30 R67: reserved bits, READ_BYTE's ARG, an unused key, EV = 0 and the reserved codes. -/
theorem test_decode_refuses :
    decode (.req 0b00000000_01110101_0_1101000_000001_00#32) = .error .reqReserved ∧
    decode (.req 0b00000000_01110101_1_1101000_000000_00#32) = .error .reqReserved ∧
    decode (.req 0b00000001_01110101_0_1101000_000000_00#32) = .error .reqArg ∧
    decode (.cmd 0b0_0_1_1_1#5) = .error .cmdUnused ∧ decode (.event 0b000#3 0#32) = .error .eventNone ∧
    decode (.event 0b111#3 0#32) = .error .eventReserved := by decide
/-- A CMD_ENC with the two code-sharing commands told apart and SINGLE_RECEIVE moved: its own keys decode, the default's key
for SINGLE_RECEIVE does not (30 R61 "a model may take the table as the parameter CMD_ENC"). -/
def otherEnc : CmdEnc := { CmdEnc.standard with singleReceive := 0xF#4, sendFinish := 0x4#4 }
theorem test_other_cmd_enc :
    otherEnc.legal = true ∧ decodeWith otherEnc (.cmd 0b1_1_1_1_1#5) = .ok .singleReceive ∧
    decodeWith otherEnc (.cmd 0b0_0_1_0_0#5) = .ok .burstSendFinish ∧
    decodeWith otherEnc (.cmd 0b1_0_1_1_1#5) = .error .cmdUnused := by decide
/-- The encoder on the words of 95 section 1. -/
theorem test_encode_words :
    encode (.wrb 0x68#7 0x6B#8 0x00#8) = .req 0x006B6801#32 ∧ encode (.rdn 0x1E#7 0x03#8 6#8) = .req 0x06031E02#32 ∧
    encode .burstReceiveFinish = .cmd 0b10101#5 ∧ encode (.torq 0xFFFFFFFB#32) = .event 0b011#3 0xFFFFFFFB#32 := by decide
/-- A row's bits as the table numbers them: a request's 32, an event's 35 (code below operand), a command's 5 (log 21). -/
theorem test_table_words :
    decodeTableWord 32 0x043B6802 = some (.rdn 0x68#7 0x3B#8 4#8) ∧
    decodeTableWord 35 (0x41 * 8 + 3) = some (.torq 65#32) ∧ decodeTableWord 40 (1 * 8 + 4) = some (.cfg 1#32) ∧
    decodeTableWord 8 0x1B = some .burstReceiveStart ∧ decodeTableWord 8 2 = some .tickC ∧
    decodeTableWord 5 3 = some .burstSendStart ∧ decodeTableWord 3 1 = some .tickS := by decide
/-- A placed instruction is the one the next step runs, from reset with nothing else set. -/
theorem test_placed_request :
    nexts (step (State.reset.withFetchWord 32 0x063B6802)) (fun t =>
      decide (t.engSeq = .active ⟨.readBurst, 0x68#7, 0x3B#8, 6, 0, .preWait⟩)) = true := by decide +kernel
theorem test_placed_command :
    nexts (step (State.reset.withFetchWord 5 0x19)) (fun t => decide (t.bcCmd = some 0x9#4)) = true := by decide +kernel
theorem test_placed_event :
    nexts (step (State.reset.withFetchWord 35 (65 * 8 + 3))) (fun t => decide (t.torque = 65#32)) = true := by
  decide +kernel

/-! ### One step of each instruction -/

/-- `RDB 0x68, 0x75`: REQ = 0x00756800, ENG_STATUS = 0x01 (95 sections 3.1, 3.2). -/
theorem test_rdb : nexts (exec (.rdb 0x68#7 0x75#8) ex) (fun t =>
    decide (t.engReq = some 0x00756800#32) && decide (t.engStatus = 0x01#8)) = true := by decide +kernel
/-- `WRB 0x68, 0x6B, 0x00`: REQ = 0x006B6801 (95 section 3.1). -/
theorem test_wrb : nexts (exec (.wrb 0x68#7 0x6B#8 0x00#8) ex) (fun t =>
    decide (t.engReq = some 0x006B6801#32)) = true := by decide +kernel
/-- `RDN 0x68, 0x3B, 4`: REQ = 0x043B6802 (95 section 3.1). -/
theorem test_rdn : nexts (exec (.rdn 0x68#7 0x3B#8 4#8) ex) (fun t =>
    decide (t.engReq = some 0x043B6802#32)) = true := by decide +kernel
/-- `WRN 0x1E, 0x00, 2` with TXBUF = [0x70, 0xA0] is accepted; with TXBUF[1] never written it faults (95 section 3.2). -/
theorem test_wrn : nexts (exec (.wrn 0x1E#7 0x00#8 2#8) { ex with txbuf := [(0, 0x70#8), (1, 0xA0#8)] }) (fun t =>
    decide (t.engReq = some 0x02001E03#32)) = true := by decide +kernel
theorem test_wrn_unwritten :
    faults (exec (.wrn 0x1E#7 0x00#8 2#8) { ex with txbuf := [(0, 0x70#8)] }) .txbufUnwritten = true := by decide +kernel
/-- `BURST_SEND_START sa=0xD0 dr=0x75` (95 section 3.2). -/
theorem test_send_start :
    nexts (exec .burstSendStart (inTxn ⟨.readByte, 0x68#7, 0x75#8, 1, 0, .issue⟩ ex)) (fun t =>
      decide (t.bcSa = some 0xD0#8) && decide (t.bcDrOut = some 0x75#8) && decide (t.bcCmd = some 0x3#4)) = true := by
  decide +kernel
/-- `BURST_SEND_CONT sa=0x3C dr=0x70`, then `BURST_SEND_FINISH sa=0x3C dr=0xA0` (95 section 3.2). -/
theorem test_send_cont :
    nexts (exec .burstSendCont { inTxn ⟨.writeBurst, 0x1E#7, 0x00#8, 2, 1, .issue⟩ ex with
      txbuf := [(0, 0x70#8), (1, 0xA0#8)] }) (fun t =>
        decide (t.bcSa = some 0x3C#8) && decide (t.bcDrOut = some 0x70#8) && decide (t.bcCmd = some 0x1#4)) = true := by
  decide +kernel
theorem test_send_finish :
    nexts (exec .burstSendFinish { inTxn ⟨.writeBurst, 0x1E#7, 0x00#8, 2, 2, .issue⟩ ex with
      txbuf := [(0, 0x70#8), (1, 0xA0#8)] }) (fun t =>
        decide (t.bcSa = some 0x3C#8) && decide (t.bcDrOut = some 0xA0#8) && decide (t.bcCmd = some 0x5#4)) = true := by
  decide +kernel
/-- `BURST_SEND_FINISH sa=0xD2 dr=0x18` of INIT GYR (95 P1). -/
theorem test_send_finish_byte :
    nexts (exec .burstSendFinish { inTxn ⟨.writeByte, 0x69#7, 0x1B#8, 1, 1, .issue⟩ ex with
      engReq := some 0x181B6901#32 }) (fun t =>
        decide (t.bcSa = some 0xD2#8) && decide (t.bcDrOut = some 0x18#8)) = true := by decide +kernel
/-- `SINGLE_RECEIVE sa=0xD1`, BC_DR_OUT unchanged (95 section 3.2, 00 R11). -/
theorem test_single_receive :
    nexts (exec .singleReceive { inTxn ⟨.readByte, 0x68#7, 0x75#8, 1, 1, .issue⟩ ex with bcDrOut := some 0x75#8 })
      (fun t => decide (t.bcSa = some 0xD1#8) && decide (t.bcDrOut = some 0x75#8) && decide (t.bcCmd = some 0x7#4))
      = true := by decide +kernel
/-- The strobe has the code of the machine's own CMD_ENC (00 R7, 30 R61). -/
theorem test_single_receive_other_enc :
    nexts (exec .singleReceive (inTxn ⟨.readByte, 0x68#7, 0x75#8, 1, 1, .issue⟩
      { ex with params := { exParams with cmdEnc := otherEnc } })) (fun t => decide (t.bcCmd = some 0xF#4)) = true := by
  decide +kernel
/-- `BURST_RECEIVE_START sa=0xD1` (0xB), `BURST_RECEIVE_CONT sa=0xD1` (0x9), `BURST_RECEIVE_FINISH sa=0xD1` (0x5) (95 P1). -/
theorem test_receive_start :
    nexts (exec .burstReceiveStart (inTxn ⟨.readBurst, 0x68#7, 0x3B#8, 6, 1, .issue⟩ ex)) (fun t =>
      decide (t.bcSa = some 0xD1#8) && decide (t.bcCmd = some 0xB#4)) = true := by decide +kernel
theorem test_receive_cont :
    nexts (exec .burstReceiveCont (inTxn ⟨.readBurst, 0x68#7, 0x3B#8, 6, 5, .issue⟩ ex)) (fun t =>
      decide (t.bcSa = some 0xD1#8) && decide (t.bcCmd = some 0x9#4)) = true := by decide +kernel
theorem test_receive_finish :
    nexts (exec .burstReceiveFinish (inTxn ⟨.readBurst, 0x68#7, 0x3B#8, 6, 6, .issue⟩ ex)) (fun t =>
      decide (t.bcSa = some 0xD1#8) && decide (t.bcCmd = some 0x5#4)) = true := by decide +kernel
/-- `TICK_S` sets SMP_PEND (95 section 3.3). -/
theorem test_tick_s : nexts (exec .tickS ex) (fun t => t.smpPend) = true := by decide +kernel
/-- `TORQ -5` with MIX_EN = 0, then `TICK_C`: TVEC = 0 ×4, PWM_WIDTH = 1000 ×4 (95 section 3.5). -/
theorem test_tick_c :
    (tickTvec ⟨⟨f32Zero, f32Zero, f32Zero⟩, ⟨f32Zero, f32Zero, f32Zero⟩⟩
      { ex with torque := 0xFFFFFFFB#32 }).map (width 1000) = ⟨1000#32, 1000#32, 1000#32, 1000#32⟩ := by decide +kernel
/-- P3 with the measurements EX gives (z1 = 10, -10, 0; z2 = 0): PWM_WIDTH = 1398, 1500, 1500, 1601 (95 P3). -/
theorem test_tick_c_mixing :
    tickWidth ⟨⟨f32OfBits 0x41200000#32, f32OfBits 0xC1200000#32, f32Zero⟩, ⟨f32Zero, f32Zero, f32Zero⟩⟩
      { ex with torque := 50#32, cfg := 1#32 } = ⟨1398#32, 1500#32, 1500#32, 1601#32⟩ := by decide +kernel
/-- `TORQ 65` gives TORQUE = 65 (95 section 3.6). -/
theorem test_torq : nexts (exec (.torq 65#32) ex) (fun t => decide (t.torque = 65#32)) = true := by decide +kernel
/-- `CFG 0xFFFFFFFE` gives MIX_EN = 0, `CFG 1` gives CFG = 1 (95 section 3.6). -/
theorem test_cfg : nexts (exec (.cfg 0xFFFFFFFE#32) ex) (fun t => decide (cfgRead t.cfg = 0#32)) = true := by
  decide +kernel
theorem test_cfg_one : nexts (exec (.cfg 1#32) ex) (fun t => decide (cfgRead t.cfg = 1#32)) = true := by decide +kernel

/-! ### Steps that are no instruction -/

/-- Sample start, SCHED = GYR: ENG_REQ = 0x06436902, SMP_PEND = 0, SMP_SEQ = SAMPLING(GYR) (95 section 3.3). -/
theorem test_sample_start :
    nexts (step (withTurn (.sys .sampler) { ex with smpSeq := .idle, smpPend := true, sched := .gyr })) (fun t =>
      decide (t.engReq = some 0x06436902#32) && !t.smpPend && decide (t.smpSeq = .sampling .gyr)) = true := by
  decide +kernel
/-- The RXBUF of P1. -/
def exSample : RxBuf :=
  [(0, .byte 0x00#8), (1, .byte 0x64#8), (2, .byte 0xFF#8), (3, .byte 0x9C#8), (4, .byte 0x01#8), (5, .byte 0x00#8)]
/-- The SAMPLER about to finish P1's sample. -/
def exFinish : State :=
  withTurn (.sys .sampler) { ex with smpSeq := .sampling .acc, engStatus := 0x02#8, rxbuf := exSample }
/-- Sample finish: SV_ACC = [10.0, -10.0, 25.6], SCHED = GYR (95 section 3.3). -/
theorem test_sample_finish :
    nexts (step exFinish) (fun t => decide (t.sv.acc =
      ⟨f32OfBits 0x41200000#32, f32OfBits 0xC1200000#32, f32OfBits 0x41CCCCCD#32⟩) && decide (t.sched = .gyr))
      = true := by decide +kernel
/-- Abort at phase 3 of a READ_BURST: ENG_STATUS = 0x06, ENG_RESULT = 0x00 (95 section 3.2). -/
theorem test_abort :
    nexts (step (withTurn (.sys .engine) { inTxn ⟨.readBurst, 0x68#7, 0x3B#8, 6, 3, .postWait⟩ ex with bcErr := true }))
      (fun t => decide (t.engStatus = 0x06#8) && decide (t.engResult = 0x00#8) && decide (t.engSeq = .idle)) = true := by
  decide +kernel
/-- The last byte of P1: RXBUF[5] = 0x00, ENG_STATUS = 0x02, ENG_RESULT = 0x06 (95 P1). -/
theorem test_complete :
    nexts (step (withTurn (.sys .engine) (inTxn ⟨.readBurst, 0x68#7, 0x3B#8, 6, 6, .postWait⟩ ex)))
      (fun t => decide (t.engStatus = 0x02#8) && decide (t.engResult = 0x06#8) &&
        decide (memRead t.rxbuf 5 = some (.byte 0x00#8))) = true := by decide +kernel
/-- A HOST read of TVEC[0] before any TICK_C, an event of code 0b110, a TXBUF write while EBUSY = 1 (95 section 3.6). -/
theorem test_stops :
    faults (step (withTurn (.sys (.hostRead (.tvec 0))) ex)) .tvecUnwritten = true ∧
    refuses (step (withTurn (.sys (.event 0b110#3 0#32)) ex)) .eventReserved = true ∧
    refuses (step (withTurn (.client (.txb 0 0#8)) (inTxn ⟨.readByte, 0#7, 0#8, 1, 0, .preWait⟩ ex))) .txbufBusy = true := by
  decide +kernel
/-- `TORQ -5`, then a read of TORQUE: 0xFFFFFFFB (95 section 3.6). -/
theorem test_host_read :
    nexts (step (withTurn (.sys (.hostRead .torque)) { ex with torque := 0xFFFFFFFB#32 }))
      (fun t => decide (t.readOut = [0xFFFFFFFB#32])) = true := by decide +kernel
/-- One read of PWM_WIDTH gives the four widths of P3 together (43 R116, 95 P3). -/
theorem test_host_read_widths :
    nexts (step (withTurn (.sys (.hostRead .pwmWidthAll)) { ex with
      pwmWidth := some ⟨1398#32, 1500#32, 1500#32, 1601#32⟩ }))
      (fun t => decide (t.readOut = [1398#32, 1500#32, 1500#32, 1601#32])) = true := by decide +kernel
/-- After an abort a client reads FAIL = 1 and ENG_RESULT = 0x00 (60 R124, 95 section 3.2); until DONE = 1 it holds. -/
theorem test_client_collect :
    nexts (step (withTurn (.client .collect) { ex with engStatus := 0x06#8 }))
      (fun t => decide (t.readOut = [0x06#32, 0x00#32])) = true ∧
    nexts (step (withTurn (.client .collect) { ex with engStatus := 0x01#8 }))
      (fun t => decide (t.readOut = [])) = true := by decide +kernel
/-- A release of reset clears both marks of the state (70 R139), and the run's marks stay (60 R126, R127). -/
theorem test_reset_clears_marks :
    let r : RunSoFar := .start (withTurn (.sys (.releaseReset false false 0#8 false))
      { ex with resetAsserted := true, refusedMark := some .reqBusy, faultMark := some .rxbufUnwritten })
    r.next.state.refusedMark = none ∧ r.next.state.faultMark = none ∧ r.next.refused = some .reqBusy ∧
      r.next.fault = some .rxbufUnwritten := by decide +kernel
/-- A quiet block with a TICK_S still to come has not ended, without it it has, and with a mark it has not (70 R146). -/
theorem test_run_ends_after_last_event :
    let quietEx := { ex with smpSeq := .idle }
    (RunSoFar.start (withTurn (.sys (.event 0b001#3 0#32)) quietEx)).ended = false ∧
    (RunSoFar.start (withTurn (.sys (.event 0b000#3 0#32)) quietEx)).ended = true ∧
    (RunSoFar.start quietEx).ended = true ∧
    (RunSoFar.start { quietEx with refusedMark := some .reqBusy }).ended = false := by decide +kernel
/-- A completion takes a draw number, so that the next BURST_SEND_START on a held bus is treated by another draw (40 R86). -/
theorem test_completion_draws :
    nexts (step (withTurn (.sys (.complete true 0#8 true)) { ex with bcBusy := true, busInFlight := some .sendStart }))
      (fun t => t.bcErr && t.bcHeld && !t.bcBusy && decide (t.draws = 1)) = true := by decide +kernel
/-- An aborted entry of RXBUF reads as the free byte of its draw, and the read goes on (60 R127). -/
theorem test_unspecified_read :
    step (withTurn (.client (.rxb 0)) { ex with rxbuf := [(0, .unspecified)] }) = .next
      { ex with rxbuf := [(0, .unspecified)], readOut := [(Config.freeByte 0).setWidth 32], draws := 1 } := by
  rfl
/-- The successors of 95 W3, and Width of 95 section 3.5 at its corners. -/
theorem test_width_corners :
    width 16000 (f32OfBits 0x41480000#32) = 18000#32 ∧ width 1 (f32OfBits 0x42C7CCCD#32) = 1#32 ∧
    width 80000 (f32OfBits 0x4247999A#32) = 119920#32 ∧ width 0x800000 (f32OfBits 0x42C80000#32) = 0x1000000#32 ∧
    width 1000 (f32OfBits 0x80000000#32) = 1000#32 := by decide +kernel
/-- P after the first step from reset, row 1 (95 section 3.4). -/
theorem test_kf_row_one :
    (kfStep Kf.reset f32Zero f32Zero).p11 = f32OfBits 0x43F8BCD7#32 ∧
    (kfStep Kf.reset f32Zero f32Zero).p12 = f32OfBits 0x40A0CAC5#32 := by decide +kernel

/-! ### Witnesses: for each statement with hypotheses, a state and operands that meet them, clause by clause -/

/-- The turns of an operation on a bus that answers without error, then nothing more. -/
def withOp (w : Word) (answers : List Byte) (s : State) : State := { s with agenda := okTurns w answers ++ [] }

/-- The default of CMD_ENC is legal, and so is another. -/
theorem witness_DecodeOfEncode : CmdEnc.standard.legal = true ∧ otherEnc.legal = true := by decide

theorem witness_RequestWordsHaveOneReading : decode (.req 0x06FF7F02#32) = .ok (.rdn 0x7F#7 0xFF#8 6#8) := by decide

theorem witness_WiresThatDecode :
    reqOp 0x00756800#32 = 0#2 ∧ reqRsv0 0x00756800#32 = 0#6 ∧ reqRsv1 0x00756800#32 = 0#1 := by decide

theorem witness_StepRunsDecodedInstruction :
    (withTurn (.sys .engine) ex).agenda = .sys .engine :: [] ∧ ex.agenda = [] ∧ ex.resetAsserted = false ∧
    (nextTurn (withTurn (.client (.request 0x00756800#32)) ex) = .client (.request 0x00756800#32) ∧ ex.engSeq = .idle ∧
      decode (.req 0x00756800#32) = .ok (.rdb 0x68#7 0x75#8)) ∧
    (nextTurn (withTurn (.sys (.event 0b100#3 1#32)) ex) = .sys (.event 0b100#3 1#32) ∧
      decode (.event 0b100#3 1#32) = .ok (.cfg 1#32)) ∧
    nextTurn (withTurn (.sys (.event 0b000#3 1#32)) ex) = .sys (.event 0b000#3 1#32) ∧
    (nextTurn (withTurn (.sys (.event 0b111#3 1#32)) ex) = .sys (.event 0b111#3 1#32) ∧
      0b111#3 ∈ [0b101#3, 0b110#3, 0b111#3]) ∧
    nextTurn (withTurn (.sys .engine) (inTxn ⟨.readByte, 0x68#7, 0x75#8, 1, 1, .issue⟩ ex)) = .sys .engine ∧
    (ex.params.cmdEnc.legal = true ∧ (dueCmd ⟨.readByte, 0x68#7, 0x75#8, 1, 1, .issue⟩).instr = .singleReceive) := by
  decide +kernel

/-- Boot of ACC, and the start of a sample. -/
theorem witness_StepRunsSamplerRequest :
    (∃ s t q, nextTurn s = .sys .sampler ∧ s.resetAsserted = false ∧ s.engSeq = .idle ∧ s.smpSeq = .boot q ∧
      exec (.wrb (s.params.dev.get q) (s.params.initReg.get q) (s.params.initVal.get q)) (beforeTurn s) = .next t) ∧
    ∃ s t, nextTurn s = .sys .sampler ∧ s.resetAsserted = false ∧ s.engSeq = .idle ∧ s.smpSeq = .idle ∧
      s.smpPend = true ∧ exec (.rdn (s.params.dev.get s.sched) (s.params.regOut.get s.sched) 6#8)
        { beforeTurn s with smpPend := false } = .next t :=
  ⟨⟨withTurn (.sys .sampler) ex, _, .acc, rfl, rfl, rfl, rfl, rfl⟩,
    withTurn (.sys .sampler) { ex with smpSeq := .idle, smpPend := true, sched := .mag }, _, rfl, rfl, rfl, rfl, rfl, rfl⟩

/-- A state in which each of the 15 instructions answers a next state. -/
theorem witness_InstructionFrame :
    (∃ t, exec (.rdb 0#7 0#8) ex = .next t) ∧ (∃ t, exec (.wrb 0#7 0#8 0#8) ex = .next t) ∧
    (∃ t, exec (.rdn 0#7 0#8 1#8) ex = .next t) ∧
    (∃ t, exec (.wrn 0#7 0#8 1#8) { ex with txbuf := [(0, 0#8)] } = .next t) ∧
    (∃ t, exec .burstSendStart (inTxn (txnIssuing .sendStart) ex) = .next t) ∧
    (∃ t, exec .burstSendCont { inTxn (txnIssuing .sendCont) ex with txbuf := [(0, 0#8)] } = .next t) ∧
    (∃ t, exec .burstSendFinish (inTxn (txnIssuing .sendFinish) ex) = .next t) ∧
    (∃ t, exec .singleReceive (inTxn (txnIssuing .singleReceive) ex) = .next t) ∧
    (∃ t, exec .burstReceiveStart (inTxn (txnIssuing .receiveStart) ex) = .next t) ∧
    (∃ t, exec .burstReceiveCont (inTxn (txnIssuing .receiveCont) ex) = .next t) ∧
    (∃ t, exec .burstReceiveFinish (inTxn (txnIssuing .receiveFinish) ex) = .next t) ∧
    (∃ t, exec .tickS ex = .next t) ∧ (∃ t, exec .tickC ex = .next t) ∧ (∃ t, exec (.torq 5#32) ex = .next t) ∧
    ∃ t, exec (.cfg 1#32) ex = .next t :=
  ⟨⟨_, rfl⟩, ⟨_, rfl⟩, ⟨_, rfl⟩, ⟨_, rfl⟩, ⟨_, rfl⟩, ⟨_, rfl⟩, ⟨_, rfl⟩, ⟨_, rfl⟩, ⟨_, rfl⟩, ⟨_, rfl⟩, ⟨_, rfl⟩,
    ⟨_, rfl⟩, ⟨_, rfl⟩, ⟨_, rfl⟩, ⟨_, rfl⟩⟩

/-- The least and the greatest count. -/
theorem witness_RequestsAreAccepted :
    ex.engSeq = .idle ∧ (1 ≤ (1#8).toNat ∧ (1#8).toNat ≤ ex.params.nmax) ∧
    (1 ≤ (6#8).toNat ∧ (6#8).toNat = ex.params.nmax) ∧
    ∀ j, j < (2#8).toNat → ∃ b, memRead [(0, 0x70#8), (1, 0xA0#8)] j = some b := by
  refine ⟨rfl, by decide, by decide, fun j hj => ?_⟩
  match j, hj with
  | 0, _ => exact ⟨_, rfl⟩
  | 1, _ => exact ⟨_, rfl⟩

theorem witness_RequestsRefusedOrFaulted :
    nextTurn (withTurn (.client (.request 0x00756800#32)) (inTxn ⟨.readByte, 0#7, 0#8, 1, 0, .preWait⟩ ex))
      = .client (.request 0x00756800#32) ∧
    (ex.resetAsserted = false ∧ ex.engSeq = .idle) ∧
    decode (.req 0x00756804#32) = .error .reqReserved ∧
    (decode (.req 0x003B6802#32) = .ok (.rdn 0x68#7 0x3B#8 0#8) ∧ (0#8).toNat = 0) ∧
    (decode (.req 0x073B6803#32) = .ok (.wrn 0x68#7 0x3B#8 7#8) ∧ ex.params.nmax < (7#8).toNat) ∧
    (decode (.req 0x063B6803#32) = .ok (.wrn 0x68#7 0x3B#8 6#8) ∧ (6#8).toNat ≤ ex.params.nmax ∧ 5 < (6#8).toNat ∧
      memRead ex.txbuf 5 = none) := by decide +kernel

theorem witness_TxbufWriteBusyAndIdle :
    nextTurn (withTurn (.client (.txb 5 1#8)) ex) = .client (.txb 5 1#8) ∧ ex.resetAsserted = false ∧
    statusEbusy ex.engStatus = false ∧ 5 < ex.params.nmax ∧
    statusEbusy (inTxn ⟨.readByte, 0#7, 0#8, 1, 0, .preWait⟩ ex).engStatus = true := by decide +kernel

/-- The tables of 95 section 3.2: n = 1, 2, 4 for reads; n = 1, 2 for writes. -/
theorem witness_CommandSelection :
    rxCmd 0 1 = .singleReceive ∧ rxCmd 0 2 = .receiveStart ∧ rxCmd 1 2 = .receiveFinish ∧ rxCmd 0 4 = .receiveStart ∧
    rxCmd 1 4 = .receiveCont ∧ rxCmd 2 4 = .receiveCont ∧ rxCmd 3 4 = .receiveFinish ∧
    dueCmd ⟨.writeByte, 0#7, 0#8, 1, 0, .issue⟩ = .sendStart ∧ dueCmd ⟨.writeByte, 0#7, 0#8, 1, 1, .issue⟩ = .sendFinish ∧
    dueCmd ⟨.writeBurst, 0#7, 0#8, 2, 1, .issue⟩ = .sendCont ∧
    dueCmd ⟨.writeBurst, 0#7, 0#8, 2, 2, .issue⟩ = .sendFinish := by decide

/-- The first, an interior and the last data byte of a write, and WRITE_BYTE. -/
theorem witness_SendsIssue :
    (inTxn ⟨.writeBurst, 0#7, 0#8, 2, 1, .issue⟩ ex).engSeq = .active ⟨.writeBurst, 0#7, 0#8, 2, 1, .issue⟩ ∧
    memRead [(0, 7#8), (1, 8#8)] (1 - 1) = some 7#8 ∧ memRead [(0, 7#8), (1, 8#8)] (2 - 1) = some 8#8 ∧
    (inTxn ⟨.writeByte, 0#7, 0#8, 1, 1, .issue⟩ ex).engReq = some 0#32 := by decide +kernel

theorem witness_ReceivesIssue :
    ∀ n k, (n = 1 ∧ k = 1) ∨ (n = 2 ∧ k = 1) ∨ (n = 3 ∧ k = 2) ∨ (n = 2 ∧ k = 2) →
      (inTxn ⟨.readBurst, 0#7, 0#8, n, k, .issue⟩ ex).engSeq = .active ⟨.readBurst, 0#7, 0#8, n, k, .issue⟩ ∧
        1 ≤ k ∧ k ≤ n := by
  intro n k h
  exact ⟨rfl, by omega, by omega⟩

/-- Each of the seven is issued where its command is due. -/
theorem witness_OnlyTheDueCommandIsIssued :
    ∀ c : BusCmd, ∃ t, exec c.instr { inTxn (txnIssuing c) ex with txbuf := [(0, 0#8)] } = .next t := by
  intro c
  cases c <;> exact ⟨_, rfl⟩

theorem witness_EngineWaits :
    ∀ g, let s := withTurn (.sys .engine) { inTxn ⟨.readByte, 0#7, 0#8, 1, 0, g⟩ ex with bcBusy := true }
      nextTurn s = .sys .engine ∧ s.resetAsserted = false ∧ s.engSeq = .active ⟨.readByte, 0#7, 0#8, 1, 0, g⟩ ∧
        s.bcBusy = true ∧ { s with bcBusy := false }.bcBusy = false :=
  fun _ => ⟨rfl, rfl, rfl, rfl, rfl⟩

/-- Phase 0, and the last phase before the last. -/
theorem witness_PhaseEndsWithCapture :
    ∀ k, k = 0 ∨ k = 5 → let s := withTurn (.sys .engine) (inTxn ⟨.readBurst, 0#7, 0#8, 6, k, .postWait⟩ ex)
      nextTurn s = .sys .engine ∧ s.resetAsserted = false ∧
        s.engSeq = .active ⟨.readBurst, 0#7, 0#8, 6, k, .postWait⟩ ∧ s.bcBusy = false ∧ s.bcErr = false ∧ k < 6 :=
  fun _ _ => ⟨rfl, rfl, rfl, rfl, rfl, by omega⟩

theorem witness_CompletionWritesResultAndStatus :
    ∀ op : EngOp, let s := withTurn (.sys .engine) (inTxn ⟨op, 0#7, 0#8, 1, 1, .postWait⟩ ex)
      nextTurn s = .sys .engine ∧ s.resetAsserted = false ∧
        s.engSeq = .active ⟨op, 0#7, 0#8, 1, 1, .postWait⟩ ∧ s.bcBusy = false ∧ s.bcErr = false :=
  fun _ => ⟨rfl, rfl, rfl, rfl, rfl⟩

/-- An abort at any phase of any operation. -/
theorem witness_AbortOnBusError :
    ∀ op k, let s := withTurn (.sys .engine) { inTxn ⟨op, 0#7, 0#8, 6, k, .postWait⟩ ex with bcErr := true }
      nextTurn s = .sys .engine ∧ s.resetAsserted = false ∧
        s.engSeq = .active ⟨op, 0#7, 0#8, 6, k, .postWait⟩ ∧ s.bcBusy = false ∧ s.bcErr = true :=
  fun _ _ => ⟨rfl, rfl, rfl, rfl, rfl⟩

theorem witness_ByteOperationsComplete :
    ex.engSeq = .idle ∧ ex.resetAsserted = false ∧ ex.bcBusy = false ∧
    (withOp (reqWord 0#8 0x75#8 0x68#7 0b00#2) [0#8, 0x68#8] ex).agenda =
      okTurns (reqWord 0#8 0x75#8 0x68#7 0b00#2) [0#8, 0x68#8] ++ [] ∧
    (withOp (reqWord 0#8 0x6B#8 0x68#7 0b01#2) [0#8, 0#8] ex).agenda =
      okTurns (reqWord 0#8 0x6B#8 0x68#7 0b01#2) [0#8, 0#8] ++ [] := ⟨rfl, rfl, rfl, rfl, rfl⟩

/-- One byte, and NMAX bytes. -/
theorem witness_ReadBurstDeliversBytesInOrder :
    ∀ bytes : List Byte, bytes = [0x5A#8] ∨ bytes = [0#8, 1#8, 2#8, 3#8, 4#8, 5#8] →
      1 ≤ bytes.length ∧ bytes.length ≤ ex.params.nmax ∧
      (withOp (reqWord (BitVec.ofNat 8 bytes.length) 0#8 0#7 0b10#2) (9#8 :: bytes) ex).agenda =
        okTurns (reqWord (BitVec.ofNat 8 bytes.length) 0#8 0#7 0b10#2) (9#8 :: bytes) ++ [] := by
  rintro bytes (rfl | rfl)
  · exact ⟨by decide, by decide, rfl⟩
  · exact ⟨by decide, by decide, rfl⟩

/-- An error in phase 0 and in the last phase of a read of six bytes. -/
theorem witness_AbortedReadBurstIssuesNoMore :
    1 ≤ (6#8).toNat ∧ (6#8).toNat ≤ ex.params.nmax ∧ ([] : List Byte).length ≤ (6#8).toNat ∧
    [0#8, 1#8, 2#8, 3#8, 4#8, 5#8].length ≤ (6#8).toNat ∧
    ∀ answers : List Byte,
      { ex with agenda := okTurns (reqWord 6#8 0#8 0#7 0b10#2) answers ++ (phaseTurns true 0#8 false ++ []) }.agenda =
        okTurns (reqWord 6#8 0#8 0#7 0b10#2) answers ++ (phaseTurns true 0#8 false ++ []) :=
  ⟨by decide, by decide, by decide, by decide, fun _ => rfl⟩

/-- WRN 0x1E, 0x00, [0x70, 0xA0] (95 section 3.2). -/
theorem witness_WriteBurstSendsBytesInOrder :
    [0x70#8].length + 1 ≤ ex.params.nmax ∧ [0#8, 0#8, 0#8].length = [0x70#8].length + 2 ∧
    (∀ j b, ([0x70#8] ++ [0xA0#8])[j]? = some b → memRead [(0, 0x70#8), (1, 0xA0#8)] j = some b) ∧
    (withOp (reqWord 2#8 0x00#8 0x1E#7 0b11#2) [0#8, 0#8, 0#8] ex).agenda =
      okTurns (reqWord (BitVec.ofNat 8 ([0x70#8].length + 1)) 0x00#8 0x1E#7 0b11#2) [0#8, 0#8, 0#8] ++ [] := by
  refine ⟨by decide, rfl, fun j b h => ?_, rfl⟩
  match j, h with
  | 0, h => exact h
  | 1, h => exact h

theorem witness_BusTraceOfOperations : 1 ≤ [0x5A#8].length := by decide

theorem witness_BusCompletionContract :
    ∀ s busy, s = withTurn (.sys (.complete false 1#8 false)) { ex with
        bcBusy := busy, busInFlight := some .singleReceive } →
      nextTurn s = .sys (.complete false 1#8 false) ∧ s.bcBusy = busy ∧ s.busInFlight = some .singleReceive := by
  rintro _ _ rfl
  exact ⟨rfl, rfl, rfl⟩

theorem witness_BusInputsChangeOnlyByCompletion :
    ∃ t, step (withTurn (.sys .engine) { inTxn ⟨.readByte, 0#7, 0#8, 1, 0, .issue⟩ ex with bcBusy := true }) = .next t :=
  ⟨_, rfl⟩

theorem witness_SampleTickSetsPending : { ex with smpPend := true }.smpPend = true := rfl

theorem witness_BootSequence :
    (∀ g w, let s := withTurn (.sys .sampler) { ex with smpSeq := g, engStatus := w }
      nextTurn s = .sys .sampler ∧ s.resetAsserted = false ∧ s.smpSeq = g ∧ s.engSeq = .idle ∧ s.engStatus = w) ∧
    statusDone 0x02#8 = true ∧ statusDone 0x06#8 = true ∧ statusDone 0x01#8 = false :=
  ⟨fun _ _ => ⟨rfl, rfl, rfl, rfl, rfl⟩, by decide⟩

theorem witness_SampleStart :
    ∀ p, let s := withTurn (.sys .sampler) { ex with smpSeq := .idle, smpPend := p }
      nextTurn s = .sys .sampler ∧ s.resetAsserted = false ∧ s.smpSeq = .idle ∧ s.engSeq = .idle ∧ s.smpPend = p :=
  fun _ => ⟨rfl, rfl, rfl, rfl, rfl⟩

theorem witness_SampleFinishSmooths :
    nextTurn exFinish = .sys .sampler ∧ exFinish.resetAsserted = false ∧ exFinish.smpSeq = .sampling .acc ∧
    statusDone exFinish.engStatus = true ∧ statusFail exFinish.engStatus = false ∧
    memRead exFinish.rxbuf 0 = some (.byte 0x00#8) ∧ memRead exFinish.rxbuf 1 = some (.byte 0x64#8) ∧
    memRead exFinish.rxbuf 2 = some (.byte 0xFF#8) ∧ memRead exFinish.rxbuf 3 = some (.byte 0x9C#8) ∧
    memRead exFinish.rxbuf 4 = some (.byte 0x01#8) ∧ memRead exFinish.rxbuf 5 = some (.byte 0x00#8) := by decide +kernel

theorem witness_FailedSampleKeepsVector :
    let s := { exFinish with engStatus := 0x06#8, rxbuf := [] }
    nextTurn s = .sys .sampler ∧ s.resetAsserted = false ∧ s.smpSeq = .sampling .acc ∧
      statusDone s.engStatus = true ∧ statusFail s.engStatus = true := by decide +kernel

/-- Reset's vectors are bounded. -/
theorem ex_SvOk : SvOk ex := by
  intro q c
  cases q <;> cases c <;> rfl

theorem witness_SmoothedVectorsStayBounded : SvOk exFinish ∧ ∃ t, step exFinish = .next t :=
  ⟨ex_SvOk, _, rfl⟩

theorem witness_OnlySamplerWritesVectors :
    (∃ t, step exFinish = .next t) ∧ (∀ busy err b held, nextTurn exFinish ≠ .sys (.releaseReset busy err b held)) ∧
    nextTurn (withTurn (.sys (.event 0b010#3 0#32)) ex) ≠ .sys .sampler ∧
    (∃ t, step (withTurn (.sys (.event 0b010#3 0#32)) ex) = .next t) ∧
    exFinish.smpSeq ≠ .sampling .gyr ∧ exFinish.smpSeq ≠ .sampling .mag :=
  ⟨⟨_, rfl⟩, nofun, nofun, ⟨_, rfl⟩, nofun, nofun⟩

/-- A pending tick that is served, and one that a reset clears. -/
theorem witness_PendingTickIsKeptUntilServed :
    (∃ t, step (withTurn (.sys .sampler) { ex with smpSeq := .idle, smpPend := true }) = .next t ∧ t.smpPend = false) ∧
    ∃ t, step (withTurn (.sys (.releaseReset false false 0#8 false))
      { ex with smpPend := true, resetAsserted := true }) = .next t ∧ t.smpPend = false :=
  ⟨⟨_, rfl, rfl⟩, _, rfl, rfl⟩

/-- Two filters of one covariance and different estimates. -/
theorem witness_CovarianceIgnoresMeasurements : SameCov Kf.reset { Kf.reset with x0 := f32One } :=
  ⟨rfl, rfl, rfl, rfl, rfl, rfl, rfl, rfl, rfl⟩

theorem witness_AxesShareCovariance :
    SameCov ex.kf.roll ex.kf.pitch ∧ SameCov ex.kf.pitch ex.kf.yaw ∧
    ∃ t, step (withTurn (.sys (.event 0b010#3 0#32)) ex) = .next t :=
  ⟨⟨rfl, rfl, rfl, rfl, rfl, rfl, rfl, rfl, rfl⟩, ⟨rfl, rfl, rfl, rfl, rfl, rfl, rfl, rfl, rfl⟩, _, rfl⟩

theorem witness_NanPoisonsTheState : { Kf.reset with x1 := .nan }.x1 = .nan := rfl

/-- Two states that differ in what a tick may not read. -/
theorem witness_ControlTickReadsOnlySnapshot :
    let s' := inTxn ⟨.readByte, 0#7, 0#8, 1, 0, .preWait⟩ { ex with smpPend := true, cfg := 0xFFFFFFFE#32 }
    ex.sv = s'.sv ∧ ex.torque = s'.torque ∧ cfgMixEn ex.cfg = cfgMixEn s'.cfg ∧ ex.kf = s'.kf ∧ ex.ierr = s'.ierr ∧
      ex.params = s'.params ∧ (∃ t, exec .tickC ex = .next t) ∧ ∃ t, exec .tickC s' = .next t :=
  ⟨rfl, rfl, rfl, rfl, rfl, rfl, ⟨_, rfl⟩, _, rfl⟩

theorem witness_BroadcastTorqueTick :
    let s := { ex with torque := 50#32 }
    cfgMixEn s.cfg = false ∧ s.torque = 50#32 ∧ s.params.pwmBase = 1000 ∧ ∃ t, exec .tickC s = .next t :=
  ⟨rfl, rfl, rfl, _, rfl⟩

/-- NaN, -5.0, 150.0, -0.0 and 100.0 (95 W5). -/
theorem witness_ClampRange :
    clamp .nan = f32Zero ∧ flt (f32OfBits 0xC0A00000#32) f32Zero = true ∧
    flt (f32OfBits 0x42C80000#32) (f32OfBits 0x43160000#32) = true ∧
    torqueInRange (f32OfBits 0x80000000#32) = true ∧ torqueInRange (f32OfBits 0x42C80000#32) = true := by decide +kernel

/-- PWM_BASE at both ends, the torque at both ends. -/
theorem witness_WidthWithinBounds :
    1 ≤ 2 ^ 23 ∧ torqueInRange (f32OfBits 0x80000000#32) = true ∧ torqueInRange (f32OfBits 0x42C80000#32) = true ∧
    (width 0x800000 (f32OfBits 0x42C80000#32)).toNat = 2 * 2 ^ 23 ∧ (width 1 (f32OfBits 0x80000000#32)).toNat = 1 := by
  decide +kernel

/-- 0, 2^24 and -2^24. -/
theorem witness_SmallTorqueConvertsExactly :
    (0 : Int).natAbs ≤ 2 ^ 24 ∧ (16777216 : Int).natAbs ≤ 2 ^ 24 ∧ (-16777216 : Int).natAbs ≤ 2 ^ 24 ∧
    i2f 16777216 = f32OfBits 0x4B800000#32 ∧ i2f (-16777216) = f32OfBits 0xCB800000#32 := by decide +kernel

theorem witness_ControlStateHasOneWriter :
    ∃ t, step (withTurn (.sys (.event 0b001#3 0#32)) ex) = .next t ∧
      ∀ v, nextTurn (withTurn (.sys (.event 0b001#3 0#32)) ex) ≠ .sys (.event 0b010#3 v) :=
  ⟨_, rfl, fun _ h => absurd h (by simp [withTurn, nextTurn])⟩

/-- Reset is such a state, for every turn. -/
theorem witness_UnwrittenReadsAndForbiddenInputsStop :
    (∀ u, nextTurn (withTurn u ex) = u) ∧ ex.tvec = none ∧ ex.pwmWidth = none ∧ ex.resetAsserted = false ∧
    5 < ex.params.nmax ∧ memRead ex.rxbuf 5 = none ∧ ex.bcSa = none ∧ ex.bcDrOut = none :=
  ⟨fun _ => rfl, by decide +kernel⟩

/-- Every target of a HOST read, each f32 target also with a NaN or the -0.0 that must not read as +0.0; a client's reads. -/
theorem witness_HostReadsGiveValuesWithoutSideEffect :
    (∀ r, nextTurn (withTurn (.sys (.hostRead r)) ex) = .sys (.hostRead r)) ∧
    (∃ t, step (withTurn (.sys (.hostRead (.ierr .yaw))) ex) = .next t) ∧
    ex.ierr.get .yaw = f32OfBits 0#32 ∧ ex.ierr.get .yaw ≠ .nan ∧
    { ex with tvec := some ⟨f32OfBits 0x80000000#32, f32Zero, f32Zero, f32One⟩ }.tvec
      = some ⟨f32OfBits 0x80000000#32, f32Zero, f32Zero, f32One⟩ ∧
    { ex with pwmWidth := some ⟨1#32, 2#32, 3#32, 4#32⟩ }.pwmWidth = some ⟨1#32, 2#32, 3#32, 4#32⟩ ∧
    (∀ c, nextTurn (withTurn (.client c) ex) = .client c) ∧ ex.resetAsserted = false ∧
    statusDone ex.engStatus = false ∧ statusDone { ex with engStatus := 0x06#8 }.engStatus = true :=
  ⟨fun _ => rfl, ⟨_, rfl⟩, rfl, nofun, rfl, rfl, fun _ => rfl, rfl, by decide, by decide⟩

/-- A refusal, a fault, a mark that is kept and a reset that clears it, in the state and in the run. -/
theorem witness_MarksAreKept :
    step (withTurn (.sys (.hostWrite .engReq 0#32)) ex) = .refused .hostWrite ∧
    step (withTurn (.sys (.hostRead (.tvec 3))) ex) = .fault .tvecUnwritten ∧ ex.refusedMark = none ∧
    ex.faultMark = none ∧ { ex with refusedMark := some .reqBusy }.refusedMark = some .reqBusy ∧
    { ex with faultMark := some .bcUnwritten }.faultMark = some .bcUnwritten ∧ ex.resetAsserted = false ∧
    { ex with resetAsserted := true }.resetAsserted = true ∧
    nextTurn (withTurn (.sys (.releaseReset false false 0#8 false)) ex) = .sys (.releaseReset false false 0#8 false) ∧
    (RunSoFar.start { ex with refusedMark := some .reqBusy }).refused = some .reqBusy ∧
    (RunSoFar.start { ex with faultMark := some .bcUnwritten }).fault = some .bcUnwritten :=
  ⟨rfl, rfl, rfl, rfl, rfl, rfl, rfl, rfl, rfl, rfl, rfl⟩

/-- Reset meets the invariants, under EX too. -/
theorem ex_BlockOk : BlockOk ex :=
  ⟨⟨List.Pairwise.nil, List.Pairwise.nil, nofun, nofun⟩, .inl rfl, .inl rfl, rfl⟩

theorem ex_SamplerOk : SamplerOk ex := rfl

theorem witness_BlockStepsNeverStop :
    (∀ u, BlockOk (withTurn u ex) ∧ SamplerOk (withTurn u ex) ∧ nextTurn (withTurn u ex) = u) ∧
    0b100#3 ∉ [0b101#3, 0b110#3, 0b111#3] ∧ 0b000#3 ∉ [0b101#3, 0b110#3, 0b111#3] :=
  ⟨fun _ => ⟨ex_BlockOk, ex_SamplerOk, rfl⟩, by decide⟩

theorem witness_ResetReleaseRestoresResetState :
    let s := withTurn (.sys (.releaseReset false true 7#8 true))
      { inTxn ⟨.readBurst, 0#7, 0#8, 6, 3, .postWait⟩ ex with resetAsserted := true }
    nextTurn s = .sys (.releaseReset false true 7#8 true) ∧ s.resetAsserted = true := ⟨rfl, rfl⟩

theorem witness_AssertedResetFreezesTheBlock :
    ∀ u, nextTurn (withTurn u { ex with resetAsserted := true }) = u ∧
      (withTurn u { ex with resetAsserted := true }).resetAsserted = true := fun _ => ⟨rfl, rfl⟩

/-- A sample whose first command BUSCTL does not complete. -/
def exStuck : State :=
  { inTxn ⟨.readBurst, 0x68#7, 0x3B#8, 6, 0, .postWait⟩ ex with
    smpSeq := .sampling .acc, smpPend := true, bcBusy := true, busInFlight := some .sendStart }

theorem witness_StuckBusFreezesSampling :
    stuckBus (withTurn (.sys .engine) exStuck) = true ∧ (∃ t, step (withTurn (.sys .engine) exStuck) = .next t) ∧
    (∀ e b h, nextTurn (withTurn (.sys .engine) exStuck) ≠ .sys (.complete e b h)) ∧
    (∀ y e b h, nextTurn (withTurn (.sys .engine) exStuck) ≠ .sys (.releaseReset y e b h)) ∧ exStuck.smpPend = true ∧
    stuckBus (withTurn (.sys (.event 0b010#3 0#32)) exStuck) = true ∧ exStuck.resetAsserted = false ∧
    nextTurn (withTurn (.sys (.event 0b010#3 0#32)) exStuck) = .sys (.event 0b010#3 0#32) :=
  ⟨rfl, ⟨_, rfl⟩, nofun, nofun, rfl, rfl, rfl, rfl⟩

theorem witness_StepKeepsBlockInvariant :
    BlockOk (withTurn (.sys .sampler) ex) ∧ ∃ t, step (withTurn (.sys .sampler) ex) = .next t := ⟨ex_BlockOk, _, rfl⟩

theorem witness_StepKeepsSamplerInvariant :
    let s := withTurn (.sys .sampler) ex
    BlockOk s ∧ SamplerOk s ∧ noClient s = true ∧ ∃ t, step s = .next t := ⟨ex_BlockOk, ex_SamplerOk, rfl, _, rfl⟩

end Sys2Proof.Tests
end

section
/-! SUPPORT. The command of each byte (40_i2c_engine.md R74, R75), one equation per case of its table. -/

namespace Sys2Proof.Machine

/-! ### RxCmd (40 R74) -/

theorem rxCmd_of_one (j : Nat) : rxCmd j 1 = .singleReceive := rfl

theorem rxCmd_first {n : Nat} (hn : 2 ≤ n) : rxCmd 0 n = .receiveStart := by
  rw [rxCmd, if_neg (by omega), if_pos rfl]

theorem rxCmd_last {n : Nat} (hn : 2 ≤ n) : rxCmd (n - 1) n = .receiveFinish := by
  rw [rxCmd, if_neg (by omega), if_neg (by omega), if_pos rfl]

theorem rxCmd_interior {j n : Nat} (h0 : 0 < j) (hj : j < n - 1) : rxCmd j n = .receiveCont := by
  rw [rxCmd, if_neg (by omega), if_neg (by omega), if_neg (by omega)]

/-! ### TxCmd and the phases of a write (40 R75, R77) -/

theorem txCmd_last (n : Nat) : txCmd (n - 1) n = .sendFinish := if_pos rfl

theorem txCmd_before_last {j n : Nat} (hj : j < n - 1) : txCmd j n = .sendCont := if_neg (by omega)

/-- Phase 0 of every operation sends the register address with BURST_SEND_START. -/
theorem dueCmd_register_phase {t : Txn} (hk : t.k = 0) : dueCmd t = .sendStart := if_pos hk

/-- Phase k ≥ 1 of a write sends data byte k - 1. -/
theorem dueCmd_write_phase {t : Txn} (hk : 1 ≤ t.k) (hw : t.op = .writeByte ∨ t.op = .writeBurst) :
    dueCmd t = txCmd (t.k - 1) t.n := by
  rw [dueCmd, if_neg (by omega)]
  rcases hw with hw | hw <;> rw [hw]

/-- Settles O11: the table of R74 case by case, and R75's for data byte k - 1 of phase k. -/
theorem commandSelection : Obligations.CommandSelection := by
  refine ⟨fun j n _ _ => ⟨?single, ?start, ?finish, ?cont⟩,
    fun t _ hw => ⟨dueCmd_register_phase, ?sendFinish, ?sendCont⟩⟩
  case single => rintro rfl; exact rxCmd_of_one j
  case start => rintro hn rfl; exact rxCmd_first hn
  case finish => rintro hn rfl; exact rxCmd_last hn
  case cont => exact fun _ h0 hj => rxCmd_interior h0 hj
  case sendFinish =>
    intro hk hn
    rw [dueCmd_write_phase hk hw, hn]
    exact txCmd_last t.n
  case sendCont =>
    intro hk hn
    rw [dueCmd_write_phase hk hw]
    exact txCmd_before_last (by omega)

end Sys2Proof.Machine
end

section
/-! SUPPORT. The ENGINE's step at the end of POST_WAIT, the capture and the completion (40_i2c_engine.md R76 to R78). -/

namespace Sys2Proof.Machine

/-- A step on the ENGINE's turn while reset is not asserted. -/
theorem step_engine {s : State} (hu : nextTurn s = .sys .engine) (hr : s.resetAsserted = false) :
    step s = engineTurn exec (beforeTurn s) := by
  rw [step, stepWith, hu, takeTurn, sysTurn, beforeTurn_resetAsserted, hr]
  rfl

/-- POST_WAIT ends once BC_BUSY = 0 (40 R76). -/
theorem engineTurn_postWait_of_free {s : State} {t : Txn} (ht : s.engSeq = .active t) (hg : t.stage = .postWait)
    (hb : s.bcBusy = false) : engineTurn exec s = .next (postWait t s) := by
  simp [engineTurn, ht, hg, hb]

/-- Phase n without an error is captured and completes the operation (40 R78). -/
theorem postWait_of_last {s : State} {t : Txn} (he : s.bcErr = false) (hk : t.k = t.n) :
    postWait t s = completeTxn t (capture t s) := by
  simp [postWait, he, hk]

/-! ### The capture (40 R77) -/

/-- Phase k ≥ 1 of a READ_BURST puts BC_DR_IN into RXBUF[k-1]. -/
theorem memRead_capture_self {t : Txn} (s : State) (ho : t.op = .readBurst) (hk : 1 ≤ t.k) :
    memRead (capture t s).rxbuf (t.k - 1) = some (.byte s.bcDrIn) := by
  rw [capture_rxbuf, if_pos ⟨ho, hk⟩, memRead_memWrite_self]

/-- No capture touches an entry other than k-1. -/
theorem memRead_capture_of_ne (t : Txn) (s : State) {j : Nat} (hj : j ≠ t.k - 1) :
    memRead (capture t s).rxbuf j = memRead s.rxbuf j := by
  rw [capture_rxbuf]
  split
  · exact memRead_memWrite_of_ne _ _ hj
  · rfl

/-- Only a READ_BURST captures into RXBUF. -/
theorem capture_rxbuf_of_not_readBurst {t : Txn} (s : State) (ho : t.op ≠ .readBurst) :
    (capture t s).rxbuf = s.rxbuf := by
  rw [capture_rxbuf, if_neg fun h => ho h.1]

/-! ### ENG_RESULT (40 R78) -/

theorem resultOf_readByte {t : Txn} (b : Byte) (ho : t.op = .readByte) : resultOf t b = b := by
  rw [resultOf, ho]

theorem resultOf_readBurst_toNat {t : Txn} (b : Byte) (ho : t.op = .readBurst) :
    (resultOf t b).toNat = t.n % 256 := by
  rw [resultOf, ho]
  exact BitVec.toNat_ofNat t.n 8

theorem resultOf_write {t : Txn} (b : Byte) (hw : t.op = .writeByte ∨ t.op = .writeBurst) :
    resultOf t b = 0x00#8 := by
  rcases hw with ho | ho <;> rw [resultOf, ho]

/-- The state a capture and the completion after it leave: ENG_RESULT, RXBUF as captured, DONE alone in ENG_STATUS, and
IDLE. -/
theorem completeTxn_capture (t : Txn) (s : State) :
    completeTxn t (capture t s) = { s with
      engResult := resultOf t s.bcDrIn, rxbuf := (capture t s).rxbuf, engStatus := 0x02#8, engSeq := .idle } := by
  have hdone : statusWord false true false = 0x02#8 := by decide
  rw [completeTxn, hdone]
  rfl

/-- Making room for a turn changes nothing a capture reads. -/
theorem capture_beforeTurn_rxbuf (t : Txn) (s : State) : (capture t (beforeTurn s)).rxbuf = (capture t s).rxbuf := by
  simp

/-- The whole next state of a completing step. -/
theorem step_completion {s : State} {t : Txn} (hu : nextTurn s = .sys .engine) (hr : s.resetAsserted = false)
    (ht : s.engSeq = .active t) (hg : t.stage = .postWait) (hb : s.bcBusy = false) (he : s.bcErr = false)
    (hk : t.k = t.n) :
    step s = .next { beforeTurn s with
      engResult := resultOf t s.bcDrIn, rxbuf := (capture t s).rxbuf, engStatus := 0x02#8, engSeq := .idle } := by
  rw [← beforeTurn_bcDrIn s, ← capture_beforeTurn_rxbuf t s, step_engine hu hr,
    engineTurn_postWait_of_free (by simpa using ht) hg (by simpa using hb), postWait_of_last (by simpa using he) hk,
    completeTxn_capture]

/-- Settles O17: the completing step is known whole, and R78's cases are those of `resultOf` and of `capture`. -/
theorem completionWritesResultAndStatus : Obligations.CompletionWritesResultAndStatus := by
  intro s t hu hr ht hg hb he hn hk
  refine ⟨resultOf t s.bcDrIn, (capture t s).rxbuf, step_completion hu hr ht hg hb he hk,
    resultOf_readByte _, resultOf_readBurst_toNat _, resultOf_write _, fun ho => ?_,
    capture_rxbuf_of_not_readBurst s⟩
  rw [← hk]
  exact ⟨memRead_capture_self s ho (by omega), fun j hj => memRead_capture_of_ne t s hj⟩

end Sys2Proof.Machine
end

section
/-! SUPPORT. SAMPLE_TICK, the scheduler and the end of a failed sample (41_sampling.md R92, R93, R97). -/

namespace Sys2Proof.Machine

/-! ### SAMPLE_TICK (41 R92) -/

/-- The operand of SAMPLE_TICK is not read. -/
theorem decode_sampleTick (v : Word) : decode (.event 0b001#3 v) = .ok .tickS := rfl

theorem exec_tickS (s : State) : exec .tickS s = .next { s with smpPend := true } := rfl

/-- A tick while one is pending is absorbed. -/
theorem setPending_of_pending {s : State} (hp : s.smpPend = true) : { s with smpPend := true } = s := by
  rw [← hp]

/-- Settles O26: the decoder's row for 0b001, the meaning of TICK_S, and the absorption of a second tick. -/
theorem sampleTickSetsPending : Obligations.SampleTickSetsPending := by
  refine ⟨decode_sampleTick, fun s => ⟨exec_tickS s, fun hp => ?_⟩⟩
  rw [exec_tickS, setPending_of_pending hp]

/-! ### The scheduler (41 R93) -/

/-- From any sensor every sensor is at most two advances away. -/
theorem Sensor.reached_by_succ : ∀ q q' : Sensor, q' = q ∨ q' = q.succ ∨ q' = q.succ.succ
  | .acc, .acc | .gyr, .gyr | .mag, .mag => .inl rfl
  | .acc, .gyr | .gyr, .mag | .mag, .acc => .inr (.inl rfl)
  | .acc, .mag | .gyr, .acc | .mag, .gyr => .inr (.inr rfl)

/-- Three advances return to the sensor they started from. -/
@[simp] theorem Sensor.succ_succ_succ (q : Sensor) : q.succ.succ.succ = q := by
  cases q <;> rfl

/-- Settles O32: R93's table, the reach of two advances and the return of three. -/
theorem schedulerCycle : Obligations.SchedulerCycle :=
  ⟨rfl, rfl, rfl, Sensor.reached_by_succ, Sensor.succ_succ_succ⟩

/-! ### The end of a failed sample (41 R97) -/

/-- A step on the SAMPLER's turn while reset is not asserted. -/
theorem step_sampler {s : State} (hu : nextTurn s = .sys .sampler) (hr : s.resetAsserted = false) :
    step s = samplerTurn exec (beforeTurn s) := by
  rw [step, stepWith, hu, takeTurn, sysTurn, beforeTurn_resetAsserted, hr]
  rfl

/-- A sample finishes once DONE = 1 (41 R95, R97). -/
theorem samplerTurn_sampling_of_done {s : State} {q : Sensor} (hq : s.smpSeq = .sampling q)
    (hd : statusDone s.engStatus = true) : samplerTurn exec s = sampleFinish q s := by
  simp [samplerTurn, hq, hd]

/-- With FAIL = 1 the finish is what every finish does, and RXBUF is not read (41 R97). -/
theorem sampleFinish_of_fail {s : State} {q : Sensor} (hf : statusFail s.engStatus = true) :
    sampleFinish q s = .next (sampleEnd q s) := if_pos hf

/-- Settles O31: the SAMPLER's turn is a sample finish, and a failed one is `sampleEnd` alone. -/
theorem failedSampleKeepsVector : Obligations.FailedSampleKeepsVector := by
  intro s q hu hr hq hd hf
  rw [step_sampler hu hr, samplerTurn_sampling_of_done (by simpa using hq) (by simpa using hd),
    sampleFinish_of_fail (by simpa using hf), sampleEnd]

end Sys2Proof.Machine
end

section
/-! SUPPORT. The worked example of the estimator (42_kalman.md R110), stage by stage: prediction, detS, gains, correction. -/

namespace Sys2Proof.Machine

/-! ### The prediction and its gains (42 R103, R104) -/

/-- pred_x and predP of the first step from reset, as R110's intermediates give them; the entries it does not list are
those that keep their reset value +0. -/
def firstPrediction : Kf where
  x0 := f32Zero
  x1 := f32Zero
  x2 := f32Zero
  p00 := f32OfBits 0x447A1333#32
  p01 := f32OfBits 0x41200000#32
  p02 := f32OfBits 0xC1200000#32
  p10 := f32OfBits 0x41200000#32
  p11 := f32OfBits 0x447C8000#32
  p12 := f32Zero
  p20 := f32OfBits 0xC1200000#32
  p21 := f32Zero
  p22 := f32OfBits 0x447A0010#32

/-- The gains of the first step from reset (the second table of R110). -/
def firstGains : Gains where
  k00 := f32OfBits 0x3F000419#32
  k01 := f32OfBits 0x3B230126#32
  k10 := f32OfBits 0x3B230126#32
  k11 := f32OfBits 0x3F00A237#32
  k20 := f32OfBits 0xBBA3D1CB#32
  k21 := f32OfBits 0x37D0A54F#32

theorem kfPredict_reset : kfPredict Kf.reset = firstPrediction := by decide +kernel

theorem detS_firstPrediction : detS firstPrediction = f32OfBits 0x4A75645C#32 := by decide +kernel

theorem gains_firstPrediction : gains firstPrediction = firstGains := by decide +kernel

/-! ### The correction of x (42 R104) -/

@[simp] theorem kfCorrect_x0 (p : Kf) (z1 z2 : F32) :
    (kfCorrect p z1 z2).x0 = addTwo p.x0 (gains p).k00 (fsub z1 p.x0) (gains p).k01 (fsub z2 p.x1) := rfl

@[simp] theorem kfCorrect_x1 (p : Kf) (z1 z2 : F32) :
    (kfCorrect p z1 z2).x1 = addTwo p.x1 (gains p).k10 (fsub z1 p.x0) (gains p).k11 (fsub z2 p.x1) := rfl

@[simp] theorem kfCorrect_x2 (p : Kf) (z1 z2 : F32) :
    (kfCorrect p z1 z2).x2 = addTwo p.x2 (gains p).k20 (fsub z1 p.x0) (gains p).k21 (fsub z2 p.x1) := rfl

/-- x after the first step from reset with z1 = 10 and z2 = 0 (the first table of R110). -/
theorem kfStep_reset_x :
    (kfStep Kf.reset (f32OfBits 0x41200000#32) f32Zero).x0 = f32OfBits 0x40A0051F#32 ∧
    (kfStep Kf.reset (f32OfBits 0x41200000#32) f32Zero).x1 = f32OfBits 0x3CCBC170#32 ∧
    (kfStep Kf.reset (f32OfBits 0x41200000#32) f32Zero).x2 = f32OfBits 0xBD4CC63E#32 := by
  rw [kfStep, kfPredict_reset, kfCorrect_x0, kfCorrect_x1, kfCorrect_x2, gains_firstPrediction]
  decide +kernel

/-- R110's x lies strictly within 0.01 of [5.00, 0.025, -0.05], bound by bound. -/
theorem worked_x_within_tolerance :
    flt (f32OfBits 0x409FAE14#32) (f32OfBits 0x40A0051F#32) = true ∧
    flt (f32OfBits 0x40A0051F#32) (f32OfBits 0x40A051EC#32) = true ∧
    flt (f32OfBits 0x3C75C28F#32) (f32OfBits 0x3CCBC170#32) = true ∧
    flt (f32OfBits 0x3CCBC170#32) (f32OfBits 0x3D0F5C29#32) = true ∧
    flt (f32OfBits 0xBD75C28F#32) (f32OfBits 0xBD4CC63E#32) = true ∧
    flt (f32OfBits 0xBD4CC63E#32) (f32OfBits 0xBD23D70A#32) = true := by decide +kernel

/-- Settles O36: the prediction from reset is `firstPrediction`, whose detS, gains and corrected x are R110's. -/
theorem kalmanGoldenStep : Obligations.KalmanGoldenStep := by
  unfold Obligations.KalmanGoldenStep
  intro p k
  have hp : p = firstPrediction := kfPredict_reset
  obtain ⟨h0, h1, h2⟩ : k.x0 = _ ∧ k.x1 = _ ∧ k.x2 = _ := kfStep_reset_x
  rw [h0, h1, h2, hp, detS_firstPrediction, gains_firstPrediction]
  exact ⟨rfl, rfl, rfl, rfl, rfl, rfl, rfl, rfl, rfl, rfl, rfl, rfl, worked_x_within_tolerance⟩

end Sys2Proof.Machine
end

section
/-! SUPPORT. The order of binary32 data and the clamp of a motor torque (43_control_mapper.md R114). -/

namespace Sys2Proof.Machine

/-! ### The order `a < b` -/

theorem flt_trans {a b c : F32} (hab : flt a b = true) (hbc : flt b c = true) : flt a c = true :=
  match a, b, c with
  | .num _ _, .num _ _, .num _ _ => decide_eq_true ((of_decide_eq_true hab).trans (of_decide_eq_true hbc))

theorem flt_asymm {a b : F32} (h : flt a b = true) : flt b a = false :=
  match a, b with
  | .num _ _, .num _ _ => decide_eq_false (of_decide_eq_true h).asymm

/-! ### The two ends of the range -/

theorem flt_clampLo_clampHi : flt constClampLo constClampHi = true := by decide +kernel

/-- No datum is outside the range on both sides. -/
theorem not_flt_clampLo_of_clampHi_flt {t : F32} (h : flt constClampHi t = true) : flt t constClampLo = false :=
  flt_asymm (flt_trans flt_clampLo_clampHi h)

theorem torqueInRange_iff {t : F32} :
    torqueInRange t = true ↔ t ≠ .nan ∧ flt t constClampLo = false ∧ flt constClampHi t = false := by
  cases t <;> simp [torqueInRange]

theorem torqueInRange_clampLo : torqueInRange constClampLo = true := by decide +kernel

theorem torqueInRange_clampHi : torqueInRange constClampHi = true := by decide +kernel

/-! ### Clamp, one equation per case (43 R114) -/

theorem clamp_nan : clamp .nan = constClampLo := rfl

theorem clamp_of_flt_clampLo {t : F32} (h : flt t constClampLo = true) : clamp t = constClampLo :=
  match t with
  | .num _ _ => if_pos h

theorem clamp_of_clampHi_flt {t : F32} (h : flt constClampHi t = true) : clamp t = constClampHi := by
  have hlo : flt t constClampLo = false := not_flt_clampLo_of_clampHi_flt h
  cases t with
  | nan => cases h
  | num s m => rw [clamp, hlo, if_neg Bool.false_ne_true, if_pos h]

theorem clamp_of_inRange {t : F32} (h : torqueInRange t = true) : clamp t = t := by
  obtain ⟨hnan, hlo, hhi⟩ := torqueInRange_iff.mp h
  cases t with
  | nan => exact absurd rfl hnan
  | num s m => rw [clamp, hlo, hhi, if_neg Bool.false_ne_true, if_neg Bool.false_ne_true]

/-- A datum is NaN, below the range, above it, or in it, and each case's result is in the range. -/
theorem torqueInRange_clamp (t : F32) : torqueInRange (clamp t) = true := by
  by_cases hnan : t = .nan
  · rw [hnan, clamp_nan]
    exact torqueInRange_clampLo
  by_cases hlo : flt t constClampLo = true
  · rw [clamp_of_flt_clampLo hlo]
    exact torqueInRange_clampLo
  by_cases hhi : flt constClampHi t = true
  · rw [clamp_of_clampHi_flt hhi]
    exact torqueInRange_clampHi
  · have hin : torqueInRange t = true :=
      torqueInRange_iff.mpr ⟨hnan, eq_false_of_ne_true hlo, eq_false_of_ne_true hhi⟩
    rwa [clamp_of_inRange hin]

/-- Settles O45: the range for every input, and R114's four cases; +0.0 and 100.0 are the ends of the clamp. -/
theorem clampRange : Obligations.ClampRange := fun t =>
  ⟨torqueInRange_clamp t, fun h => h ▸ clamp_nan, clamp_of_flt_clampLo, clamp_of_clampHi_flt, clamp_of_inRange⟩

end Sys2Proof.Machine
end

section
/-! SUPPORT. The round trip of the decoder and the encoder (30_encoding.md R60, R61, R66), and which wires decode. -/

namespace Sys2Proof

open Machine

/-! ### Round trip -/

/-- Under a legal CMD_ENC the decoder reads every instruction back: the requests by the fields of their word, the bus
commands by their key, the events by their code. -/
theorem decodeWith_encodeWith {e : CmdEnc} (h : e.legal = true) (i : Instr) :
    decodeWith e (encodeWith e i) = .ok i := by
  cases i with
  | rdb dev reg | wrb dev reg d | rdn dev reg n | wrn dev reg n => simp [encodeWith, decodeWith, decodeReq]
  | burstSendStart => exact decodeCmd_key h .sendStart
  | burstSendCont => exact decodeCmd_key h .sendCont
  | burstSendFinish => exact decodeCmd_key h .sendFinish
  | singleReceive => exact decodeCmd_key h .singleReceive
  | burstReceiveStart => exact decodeCmd_key h .receiveStart
  | burstReceiveCont => exact decodeCmd_key h .receiveCont
  | burstReceiveFinish => exact decodeCmd_key h .receiveFinish
  | tickS | tickC | torq v | cfg v => rfl

theorem legal_standard : CmdEnc.standard.legal = true := by decide

/-- Settles O2: the round trip under a legal CMD_ENC, of which the default is one. -/
theorem decodeOfEncode : Obligations.DecodeOfEncode :=
  ⟨decodeWith_encodeWith legal_standard, fun _ h i => decodeWith_encodeWith h i⟩

/-! ### The fields of a word (30 R60) -/

/-- The upper part of a concatenation is shifted up by the width of the lower part. -/
theorem toNat_append_eq_add {m n : Nat} (x : BitVec m) (y : BitVec n) :
    (x ++ y).toNat = x.toNat * 2 ^ n + y.toNat := by
  rw [BitVec.toNat_append, ← Nat.shiftLeft_add_eq_or_of_lt y.isLt, Nat.shiftLeft_eq]

theorem toNat_reqWord (arg reg : Byte) (dev : BitVec 7) (op : BitVec 2) :
    (reqWord arg reg dev op).toNat = arg.toNat * 2 ^ 24 + reg.toNat * 2 ^ 16 + dev.toNat * 2 ^ 8 + op.toNat := by
  simp only [reqWord, toNat_append_eq_add, BitVec.toNat_ofNat]
  omega

/-- A word whose reserved fields are 0 is put together from its other fields. -/
theorem reqWord_of_fields {w : Word} (h0 : reqRsv0 w = 0#6) (h1 : reqRsv1 w = 0#1) :
    reqWord (reqArg w) (reqReg w) (reqDev w) (reqOp w) = w := by
  have e0 : w.toNat / 2 ^ 2 % 2 ^ 6 = 0 := by
    simpa [reqRsv0, Nat.shiftRight_eq_div_pow] using congrArg BitVec.toNat h0
  have e1 : w.toNat / 2 ^ 15 % 2 ^ 1 = 0 := by
    simpa [reqRsv1, Nat.shiftRight_eq_div_pow] using congrArg BitVec.toNat h1
  apply BitVec.eq_of_toNat_eq
  simp only [toNat_reqWord, reqArg, reqReg, reqDev, reqOp, BitVec.extractLsb'_toNat, Nat.shiftRight_eq_div_pow]
  have := w.isLt
  omega

/-! ### Which wires decode -/

theorem decodeReq_isOk_iff (w : Word) :
    (∃ i, decodeReq w = .ok i) ↔ reqRsv0 w = 0#6 ∧ reqRsv1 w = 0#1 ∧ (reqOp w = 0#2 → reqArg w = 0#8) := by
  unfold decodeReq
  by_cases hr : reqRsv0 w ≠ 0#6 ∨ reqRsv1 w ≠ 0#1
  · rw [if_pos hr]
    simp only [reduceCtorEq, exists_false, false_iff]
    exact fun ⟨h0, h1, _⟩ => hr.elim (· h0) (· h1)
  · rw [if_neg hr]
    obtain ⟨h0, h1⟩ : reqRsv0 w = 0#6 ∧ reqRsv1 w = 0#1 := by simpa only [not_or, not_not] using hr
    by_cases hop : reqOp w = 0#2
    · by_cases ha : reqArg w = 0#8 <;> simp [h0, h1, hop, ha]
    · simp only [h0, h1, hop, if_false, false_implies, and_self, iff_true]
      split
      · exact ⟨_, rfl⟩
      · split <;> exact ⟨_, rfl⟩

/-- A request word that decodes is the encoding of what it decodes to: it is the word of its own fields, and OP selects
the form. -/
theorem encode_of_decodeReq {w : Word} {i : Instr} (h : decodeReq w = .ok i) : encode i = .req w := by
  obtain ⟨h0, h1, ha⟩ := (decodeReq_isOk_iff w).mp ⟨i, h⟩
  have hop : ∀ op : BitVec 2, op = 0b00#2 ∨ op = 0b01#2 ∨ op = 0b10#2 ∨ op = 0b11#2 := by decide
  rw [← reqWord_of_fields h0 h1] at h ⊢
  rcases hop (reqOp w) with ho | ho | ho | ho
  · obtain rfl : .rdb _ _ = i := by simpa [decodeReq, ho, ha ho] using h
    rw [ho, ha ho, encode, encodeWith]
  · obtain rfl : .wrb _ _ _ = i := by simpa [decodeReq, ho] using h
    rw [ho, encode, encodeWith]
  · obtain rfl : .rdn _ _ _ = i := by simpa [decodeReq, ho] using h
    rw [ho, encode, encodeWith]
  · obtain rfl : .wrn _ _ _ = i := by simpa [decodeReq, ho] using h
    rw [ho, encode, encodeWith]

/-- Settles O3: a word that decodes is the word of its own fields, and the fields lie where the table of R60 has them. -/
theorem requestWordsHaveOneReading : Obligations.RequestWordsHaveOneReading :=
  ⟨fun _ _ h => encode_of_decodeReq h, toNat_reqWord⟩

theorem decodeCmd_isOk_iff (e : CmdEnc) (key : BitVec 5) :
    (∃ i, decodeCmd e key = .ok i) ↔ ∃ c, key = e.key c := by
  unfold decodeCmd
  constructor
  · rintro ⟨i, h⟩
    cases hc : cmdOfKey e key with
    | none => simp [hc] at h
    | some c => exact ⟨c, (eq_of_beq (List.find?_some (p := fun c => e.key c == key) hc)).symm⟩
  · rintro ⟨c, rfl⟩
    cases hc : cmdOfKey e (e.key c) with
    | none => exact absurd (List.find?_eq_none.mp hc c (by cases c <;> simp)) (by simp)
    | some c' => exact ⟨c'.instr, rfl⟩

/-- The seven keys of the table of 30 R61. -/
theorem exists_key_standard_iff (key : BitVec 5) :
    (∃ c, key = CmdEnc.standard.key c) ↔ key ∈ [0x03#5, 0x01#5, 0x05#5, 0x17#5, 0x1B#5, 0x19#5, 0x15#5] := by
  constructor
  · rintro ⟨c, rfl⟩
    cases c <;> decide
  · simp only [List.mem_cons, List.not_mem_nil, or_false]
    rintro (rfl | rfl | rfl | rfl | rfl | rfl | rfl)
    · exact ⟨.sendStart, rfl⟩
    · exact ⟨.sendCont, rfl⟩
    · exact ⟨.sendFinish, rfl⟩
    · exact ⟨.singleReceive, rfl⟩
    · exact ⟨.receiveStart, rfl⟩
    · exact ⟨.receiveCont, rfl⟩
    · exact ⟨.receiveFinish, rfl⟩

theorem decodeEvent_isOk_iff (ev : BitVec 3) (v : Word) :
    (∃ i, decodeEvent ev v = .ok i) ↔ 1 ≤ ev.toNat ∧ ev.toNat ≤ 4 := by
  have hcodes : ∀ ev : BitVec 3, (1 ≤ ev.toNat ∧ ev.toNat ≤ 4) ↔
      ev = 0b001#3 ∨ ev = 0b010#3 ∨ ev = 0b011#3 ∨ ev = 0b100#3 := by decide
  rw [hcodes]
  constructor
  · rintro ⟨i, h⟩
    by_contra hn
    simp only [not_or] at hn
    obtain ⟨h1, h2, h3, h4⟩ := hn
    by_cases h0 : ev = 0b000#3 <;> simp [decodeEvent, h0, h1, h2, h3, h4] at h
  · rintro (rfl | rfl | rfl | rfl) <;> exact ⟨_, rfl⟩

/-- Settles O4: one equivalence for each of the three formats, and the seven keys of the default CMD_ENC. -/
theorem wiresThatDecode : Obligations.WiresThatDecode :=
  ⟨decodeReq_isOk_iff, decodeCmd_isOk_iff,
    fun key => (decodeCmd_isOk_iff CmdEnc.standard key).trans (exists_key_standard_iff key), decodeEvent_isOk_iff⟩

/-! ### The example words of 95 section 3.1 -/

/-- Settles O1: the decoder evaluated on each example word. -/
theorem exampleWordsDecode : Obligations.ExampleWordsDecode := by
  unfold Obligations.ExampleWordsDecode
  decide

end Sys2Proof
end

section
/-! SUPPORT. Rounding to binary32 (00_scope.md R13): the magnitudes as counts of 2^-149, and what the nearest one is worth.
A magnitude m counts `magUnits m`, and `roundMag n d` is one of the two magnitudes around n/d. -/

namespace Sys2Proof.Machine

/-! ### Magnitudes as counts -/

/-- A magnitude split into the scale and the significand its count is made of; the significand is full unless the scale is
the least one. -/
theorem exists_scale_significand (m : Nat) :
    ∃ k q, m = k * 2 ^ 23 + q ∧ (k = 0 ∨ 2 ^ 23 ≤ q) ∧ q < 2 ^ 24 := by
  by_cases h : m < 2 ^ 24
  · exact ⟨0, m, by omega, .inl rfl, h⟩
  · exact ⟨m / 2 ^ 23 - 1, m % 2 ^ 23 + 2 ^ 23, by omega, .inr (by omega), by omega⟩

/-- The count of a magnitude given by scale and significand. A significand of 2^24 is the next scale's 2^23. -/
theorem magUnits_of_scale {k q : Nat} (hk : k = 0 ∨ 2 ^ 23 ≤ q) (hq : q ≤ 2 ^ 24) :
    magUnits (k * 2 ^ 23 + q) = q * 2 ^ k := by
  unfold magUnits
  by_cases hlo : k * 2 ^ 23 + q < 2 ^ 23
  · obtain rfl : k = 0 := by omega
    rw [if_pos hlo, Nat.zero_mul, Nat.zero_add, Nat.pow_zero, Nat.mul_one]
  rw [if_neg hlo]
  rcases Nat.lt_or_eq_of_le hq with hq | rfl
  · have hmod : 2 ^ 23 + (k * 2 ^ 23 + q) % 2 ^ 23 = q := by omega
    have hdiv : (k * 2 ^ 23 + q) / 2 ^ 23 - 1 = k := by omega
    rw [hmod, hdiv]
  · have hmod : 2 ^ 23 + (k * 2 ^ 23 + 2 ^ 24) % 2 ^ 23 = 2 ^ 23 := by omega
    have hdiv : (k * 2 ^ 23 + 2 ^ 24) / 2 ^ 23 - 1 = k + 1 := by omega
    rw [hmod, hdiv]
    ring

/-- The next magnitude counts one unit of the last place more. -/
theorem magUnits_succ_of_scale {k q : Nat} (hk : k = 0 ∨ 2 ^ 23 ≤ q) (hq : q < 2 ^ 24) :
    magUnits (k * 2 ^ 23 + q + 1) = magUnits (k * 2 ^ 23 + q) + 2 ^ k := by
  rw [Nat.add_assoc, magUnits_of_scale (q := q + 1) (by omega) (by omega), magUnits_of_scale hk hq.le]
  ring

/-- Counts are ordered as their magnitudes. -/
theorem magUnits_strictMono : StrictMono magUnits := by
  refine strictMono_nat_of_lt_succ fun m => ?_
  obtain ⟨k, q, rfl, hk, hq⟩ := exists_scale_significand m
  rw [magUnits_succ_of_scale hk hq]
  exact Nat.lt_add_of_pos_right (Nat.two_pow_pos k)

@[simp] theorem magUnits_zero : magUnits 0 = 0 := by decide

/-- A step to the next magnitude at most doubles the count. -/
theorem magUnits_succ_le_double {m : Nat} (hm : 1 ≤ m) : magUnits (m + 1) ≤ 2 * magUnits m := by
  obtain ⟨k, q, rfl, hk, hq⟩ := exists_scale_significand m
  rw [magUnits_succ_of_scale hk hq, magUnits_of_scale hk hq.le, Nat.two_mul]
  exact Nat.add_le_add_left (Nat.le_mul_of_pos_left _ (by omega)) _

/-- Where the count is below 2^(k+24) the last place is worth at most 2^k. -/
theorem magUnits_succ_le_add {m k : Nat} (h : magUnits m < 2 ^ (k + 24)) :
    magUnits (m + 1) ≤ magUnits m + 2 ^ k := by
  obtain ⟨j, q, rfl, hj, hq⟩ := exists_scale_significand m
  rw [magUnits_succ_of_scale hj hq]
  refine Nat.add_le_add_left (Nat.pow_le_pow_right (by decide) ?_) _
  rcases hj with rfl | hj
  · exact Nat.zero_le k
  · rw [magUnits_of_scale (.inr hj) hq.le] at h
    have : 2 ^ (j + 23) < 2 ^ (k + 24) := by
      calc 2 ^ (j + 23) = 2 ^ 23 * 2 ^ j := by ring
        _ ≤ q * 2 ^ j := Nat.mul_le_mul_right _ hj
        _ < 2 ^ (k + 24) := h
    have := (Nat.pow_lt_pow_iff_right (by decide : 1 < 2)).mp this
    omega

/-- Where the count is 2^(k+23) or more the last place is worth at least 2^k. -/
theorem magUnits_add_le_succ {m k : Nat} (h : 2 ^ (k + 23) ≤ magUnits m) :
    magUnits m + 2 ^ k ≤ magUnits (m + 1) := by
  obtain ⟨j, q, rfl, hj, hq⟩ := exists_scale_significand m
  rw [magUnits_succ_of_scale hj hq]
  refine Nat.add_le_add_left (Nat.pow_le_pow_right (by decide) ?_) _
  rw [magUnits_of_scale hj hq.le] at h
  have : 2 ^ (k + 23) < 2 ^ (j + 24) := by
    calc 2 ^ (k + 23) ≤ q * 2 ^ j := h
      _ < 2 ^ 24 * 2 ^ j := Nat.mul_lt_mul_of_pos_right hq (Nat.two_pow_pos j)
      _ = 2 ^ (j + 24) := by ring
  have := (Nat.pow_lt_pow_iff_right (by decide : 1 < 2)).mp this
  omega

/-- Every integer up to 2^24, at every scale from 23 on, is the count of a magnitude. -/
theorem exists_magUnits_eq {z : Nat} (hz : z ≤ 2 ^ 24) (e : Nat) (he : 23 ≤ e) : ∃ m, magUnits m = z * 2 ^ e := by
  rcases Nat.eq_zero_or_pos z with rfl | hpos
  · exact ⟨0, by simp⟩
  rcases Nat.lt_or_eq_of_le hz with hlt | rfl
  · have hj : Nat.log2 z < 24 := (Nat.log2_lt (by omega)).mpr hlt
    have hlo : 2 ^ Nat.log2 z ≤ z := Nat.log2_self_le (by omega)
    have hhi : z < 2 ^ (Nat.log2 z + 1) := Nat.lt_log2_self
    generalize Nat.log2 z = j at hj hlo hhi
    have hfull : 2 ^ 23 ≤ z * 2 ^ (23 - j) := by
      calc 2 ^ 23 = 2 ^ j * 2 ^ (23 - j) := by rw [← Nat.pow_add]; congr 1; omega
        _ ≤ z * 2 ^ (23 - j) := Nat.mul_le_mul_right _ hlo
    have hsig : z * 2 ^ (23 - j) ≤ 2 ^ 24 := by
      calc z * 2 ^ (23 - j) ≤ 2 ^ (j + 1) * 2 ^ (23 - j) := Nat.mul_le_mul_right _ hhi.le
        _ = 2 ^ 24 := by rw [← Nat.pow_add]; congr 1; omega
    refine ⟨(e - (23 - j)) * 2 ^ 23 + z * 2 ^ (23 - j), ?_⟩
    rw [magUnits_of_scale (.inr hfull) hsig, Nat.mul_assoc, ← Nat.pow_add]
    congr 2
    omega
  · exact ⟨e * 2 ^ 23 + 2 ^ 24, magUnits_of_scale (.inr (by decide)) (le_refl _)⟩

/-! ### The nearest magnitude -/

/-- The scale, significand and remainder of n/d that `roundMag` works with. -/
theorem exists_significand (n d : Nat) :
    ∃ k q r, k = Nat.log2 (n / d) - 23 ∧ q = n / (d * 2 ^ k) ∧ r = n % (d * 2 ^ k) ∧
      (k = 0 ∨ 2 ^ 23 ≤ q) ∧ q < 2 ^ 24 := by
  refine ⟨_, _, _, rfl, rfl, rfl, ?_⟩
  rw [← Nat.div_div_eq_div_mul]
  generalize n / d = a
  constructor
  · by_cases h : Nat.log2 a ≤ 23
    · exact .inl (by omega)
    · have ha : a ≠ 0 := by rintro rfl; simp at h
      refine .inr ((Nat.le_div_iff_mul_le (Nat.two_pow_pos _)).mpr ?_)
      calc 2 ^ 23 * 2 ^ (Nat.log2 a - 23) = 2 ^ Nat.log2 a := by rw [← Nat.pow_add]; congr 1; omega
        _ ≤ a := Nat.log2_self_le ha
  · refine (Nat.div_lt_iff_lt_mul (Nat.two_pow_pos _)).mpr ?_
    calc a < 2 ^ (Nat.log2 a + 1) := Nat.lt_log2_self
      _ ≤ 2 ^ 24 * 2 ^ (Nat.log2 a - 23) := by
        rw [← Nat.pow_add]
        exact Nat.pow_le_pow_right (by decide) (by omega)

/-- `roundMag n d` lies at one of the two magnitudes m, m + 1 around n/d: at m + 1 only where n/d is no nearer to m, and in
the middle only where m is odd. -/
theorem roundMag_spec (n : Nat) {d : Nat} (hd : 0 < d) :
    ∃ m, magUnits m * d ≤ n ∧ n < magUnits (m + 1) * d ∧
      (roundMag n d = m ∨
        roundMag n d = m + 1 ∧ (magUnits m + magUnits (m + 1)) * d ≤ 2 * n ∧
          ((magUnits m + magUnits (m + 1)) * d = 2 * n → m % 2 = 1)) := by
  obtain ⟨k, q, r, hk, hq, hr, hfull, hsig⟩ := exists_significand n d
  have hn : q * (d * 2 ^ k) + r = n := by rw [hq, hr, Nat.mul_comm]; exact Nat.div_add_mod n _
  have hru : r < d * 2 ^ k := hr ▸ Nat.mod_lt _ (Nat.mul_pos hd (Nat.two_pow_pos k))
  have hm : magUnits (k * 2 ^ 23 + q) * d = q * (d * 2 ^ k) := by rw [magUnits_of_scale hfull hsig.le]; ring
  have hm1 : magUnits (k * 2 ^ 23 + q + 1) * d = q * (d * 2 ^ k) + d * 2 ^ k := by
    rw [magUnits_succ_of_scale hfull hsig, Nat.add_mul, hm, Nat.mul_comm d]
  refine ⟨k * 2 ^ 23 + q, by omega, by omega, ?_⟩
  rw [Nat.add_mul, hm, hm1]
  have hround : roundMag n d =
      k * 2 ^ 23 + (if 2 * r < d * 2 ^ k then q else if d * 2 ^ k < 2 * r then q + 1 else q + q % 2) := by
    rw [hq, hr, hk, roundMag]
  rw [hround]
  split
  · exact .inl rfl
  · split
    · exact .inr ⟨by omega, by omega, by omega⟩
    · rcases Nat.mod_two_eq_zero_or_one q with hpar | hpar
      · exact .inl (by omega)
      · exact .inr ⟨by omega, by omega, fun _ => by omega⟩

/-- Rounding does not go above a magnitude that is not below the exact value. -/
theorem roundMag_le {n d m : Nat} (hd : 0 < d) (h : n ≤ magUnits m * d) : roundMag n d ≤ m := by
  obtain ⟨m', hlo, -, hr | ⟨hr, hmid, -⟩⟩ := roundMag_spec n hd
  · rw [hr]
    exact magUnits_strictMono.le_iff_le.mp (Nat.le_of_mul_le_mul_right (hlo.trans h) hd)
  · have hgap : magUnits m' < magUnits (m' + 1) := magUnits_strictMono (Nat.lt_succ_self m')
    have hlt : magUnits m' < magUnits m := by
      have : magUnits m' * d < magUnits m * d := by nlinarith
      exact Nat.lt_of_mul_lt_mul_right this
    rw [hr]
    exact magUnits_strictMono.lt_iff_lt.mp hlt

/-- Rounding does not go below a magnitude that is not above the exact value. -/
theorem le_roundMag {n d m : Nat} (hd : 0 < d) (h : magUnits m * d ≤ n) : m ≤ roundMag n d := by
  obtain ⟨m', -, hhi, hr⟩ := roundMag_spec n hd
  have hlt : magUnits m < magUnits (m' + 1) := Nat.lt_of_mul_lt_mul_right (h.trans_lt hhi)
  have := magUnits_strictMono.lt_iff_lt.mp hlt
  omega

/-- A value that is a magnitude's is kept. -/
theorem roundMag_of_magUnits {d : Nat} (hd : 0 < d) (m : Nat) : roundMag (magUnits m * d) d = m :=
  le_antisymm (roundMag_le hd (le_refl _)) (le_roundMag hd (le_refl _))

/-- Rounding is off by at most half a unit of the last place: 2^k where the exact value is below 2^(k+25). -/
theorem magUnits_roundMag_le {n d k : Nat} (hd : 0 < d) (h : n < 2 ^ (k + 25) * d) :
    magUnits (roundMag n d) * d ≤ n + 2 ^ k * d := by
  obtain ⟨m, hlo, -, hr | ⟨hr, hmid, -⟩⟩ := roundMag_spec n hd
  · rw [hr]
    exact hlo.trans (Nat.le_add_right _ _)
  · have hstep : magUnits (m + 1) ≤ magUnits m + 2 ^ (k + 1) :=
      magUnits_succ_le_add (Nat.lt_of_mul_lt_mul_right (hlo.trans_lt h))
    rw [hr]
    have : magUnits (m + 1) * d ≤ (magUnits m + 2 ^ (k + 1)) * d := Nat.mul_le_mul_right d hstep
    rw [Nat.pow_succ] at this
    nlinarith

/-- A value no further above an even magnitude than the middle to the next one rounds to it or below. -/
theorem roundMag_le_of_even {n d m : Nat} (hd : 0 < d) (he : m % 2 = 0)
    (h : 2 * n ≤ (magUnits m + magUnits (m + 1)) * d) : roundMag n d ≤ m := by
  have hgap : magUnits m < magUnits (m + 1) := magUnits_strictMono (Nat.lt_succ_self m)
  obtain ⟨m', hlo, -, hr | ⟨hr, hmid, htie⟩⟩ := roundMag_spec n hd
  · rw [hr]
    have : magUnits m' * d < magUnits (m + 1) * d := by nlinarith
    exact Nat.lt_succ_iff.mp (magUnits_strictMono.lt_iff_lt.mp (Nat.lt_of_mul_lt_mul_right this))
  · have hsum : magUnits m' + magUnits (m' + 1) ≤ magUnits m + magUnits (m + 1) :=
      Nat.le_of_mul_le_mul_right (hmid.trans h) hd
    rw [hr]
    rcases Nat.lt_trichotomy m' m with hlt | rfl | hgt
    · exact hlt
    · have := htie (le_antisymm hmid h)
      omega
    · have h1 : magUnits m < magUnits m' := magUnits_strictMono hgt
      have h2 : magUnits (m + 1) < magUnits (m' + 1) := magUnits_strictMono (by omega)
      omega

/-! ### Signed data -/

theorem f32OfMag_of_lt {m : Nat} (neg : Bool) (h : m < F32.magBound) : f32OfMag neg m = .num neg ⟨m, h⟩ := dif_pos h

theorem lt_magBound {m : Nat} (h : m < infMag) : m < F32.magBound := by
  unfold infMag at h
  unfold F32.magBound
  omega

/-- A magnitude whose count is small is finite. -/
theorem lt_infMag {m : Nat} (h : magUnits m < 2 ^ 200) : m < infMag := by
  apply magUnits_strictMono.lt_iff_lt.mp
  calc magUnits m < 2 ^ 200 := h
    _ < magUnits infMag := by decide +kernel

/-- A sum of finite data is a zero where the exact sum is one, and else the sum rounded. -/
theorem fadd_of_finite {sa sb : Bool} {ma mb : Fin F32.magBound} (ha : ma.val < infMag) (hb : mb.val < infMag) :
    fadd (.num sa ma) (.num sb mb) =
      if signedUnits sa ma.val + signedUnits sb mb.val = 0 then f32OfMag (sa && sb) 0
      else f32OfMag (decide (signedUnits sa ma.val + signedUnits sb mb.val < 0))
        (roundMag (signedUnits sa ma.val + signedUnits sb mb.val).natAbs 1) := by
  rw [fadd, if_neg ha.ne, if_neg hb.ne]

/-- A product of finite data is the product rounded. -/
theorem fmul_of_finite {sa sb : Bool} {ma mb : Fin F32.magBound} (ha : ma.val < infMag) (hb : mb.val < infMag) :
    fmul (.num sa ma) (.num sb mb) =
      f32OfMag (sa != sb) (roundMag (magUnits ma.val * magUnits mb.val) (2 ^ 149)) := by
  rw [fmul, if_neg (by omega)]

/-- A quotient of finite data whose divisor is not 0 is the quotient rounded. -/
theorem fdiv_of_finite {sa sb : Bool} {ma mb : Fin F32.magBound} (ha : ma.val < infMag) (hb : mb.val < infMag)
    (h0 : mb.val ≠ 0) :
    fdiv (.num sa ma) (.num sb mb) =
      f32OfMag (sa != sb) (roundMag (magUnits ma.val * 2 ^ 149) (magUnits mb.val)) := by
  rw [fdiv, if_neg ha.ne, if_neg hb.ne, if_neg h0]

theorem natAbs_signedUnits (neg : Bool) (m : Nat) : (signedUnits neg m).natAbs = magUnits m := by
  cases neg <;> simp [signedUnits]

theorem signedUnits_not (neg : Bool) (m : Nat) : signedUnits (!neg) m = -signedUnits neg m := by
  cases neg <;> simp [signedUnits]

/-- An integer up to 2^24 in magnitude is a finite datum exactly (43 R119). -/
theorem i2f_of_small {z : Int} (hz : z.natAbs ≤ 2 ^ 24) :
    ∃ m, i2f z = .num (decide (z < 0)) m ∧ m.val < infMag ∧ magUnits m.val = z.natAbs * 2 ^ 149 := by
  obtain ⟨m, hm⟩ := exists_magUnits_eq hz 149 (by decide)
  have hlt : m < infMag := by
    apply lt_infMag
    calc magUnits m = z.natAbs * 2 ^ 149 := hm
      _ ≤ 2 ^ 24 * 2 ^ 149 := Nat.mul_le_mul_right _ hz
      _ < 2 ^ 200 := by decide
  have hround : roundMag (z.natAbs * 2 ^ 149) 1 = m := by
    simpa [hm] using roundMag_of_magUnits Nat.one_pos m
  exact ⟨⟨m, lt_magBound hlt⟩, by rw [i2f, hround, f32OfMag_of_lt], hlt, hm⟩

/-- Settles O47: an integer of at most 24 bits is a magnitude's count, which rounding keeps. -/
theorem smallTorqueConvertsExactly : Obligations.SmallTorqueConvertsExactly := by
  intro z hz
  obtain ⟨m, hi, hfin, hm⟩ := i2f_of_small hz
  refine ⟨_, m, hi, hfin, ?_⟩
  rw [signedUnits, hm]
  push_cast
  by_cases hneg : z < 0
  · rw [if_pos (by simpa using hneg), abs_of_neg hneg, Int.neg_mul, Int.neg_neg]
  · rw [if_neg (by simpa using hneg), abs_of_nonneg (by omega)]

end Sys2Proof.Machine
end

section
/-! SUPPORT. The smoothing moves a component towards the sample and never past it (41_sampling.md R95, R96), so that a
component within a sample's range stays there. -/

namespace Sys2Proof.Machine

/-- A sum of finite data whose exact value is no larger than a finite magnitude is finite and no larger. -/
theorem fadd_mag_le {sa sb : Bool} {ma mb : Fin F32.magBound} (ha : ma.val < infMag) (hb : mb.val < infMag) {m : Nat}
    (hm : m < infMag) (h : (signedUnits sa ma.val + signedUnits sb mb.val).natAbs ≤ magUnits m) :
    ∃ s m', fadd (.num sa ma) (.num sb mb) = .num s m' ∧ m'.val ≤ m := by
  rw [fadd_of_finite ha hb]
  split
  · exact ⟨_, _, f32OfMag_of_lt _ (by decide), Nat.zero_le m⟩
  · have hle := roundMag_le (n := (signedUnits sa ma.val + signedUnits sb mb.val).natAbs) Nat.one_pos (by simpa using h)
    exact ⟨_, _, f32OfMag_of_lt _ (lt_magBound (hle.trans_lt hm)), hle⟩

theorem constSmoothDiv_eq : constSmoothDiv = .num false ⟨0x41200000, by decide⟩ := by decide

/-- A tenth of a rounded count is, rounded, no more than the count: rounding at most doubles, and a tenth of the double is
below the magnitude under the count. -/
theorem magUnits_tenth_le (x : Nat) :
    magUnits (roundMag (magUnits (roundMag x 1) * 2 ^ 149) (magUnits 0x41200000)) ≤ x := by
  have hten : magUnits 0x41200000 = 10 * 2 ^ 149 := by decide
  obtain ⟨m, hlo, hhi, hr⟩ := roundMag_spec x Nat.one_pos
  rw [Nat.mul_one] at hlo hhi
  have hdouble : magUnits (roundMag x 1) ≤ 2 * magUnits m := by
    rcases Nat.eq_zero_or_pos m with rfl | hm
    · have hx : x = 0 := by
        have : magUnits (0 + 1) = 1 := by decide
        omega
      have h0 : roundMag x 1 ≤ 0 := roundMag_le Nat.one_pos (by simp [hx])
      simp [Nat.le_zero.mp h0]
    · have hle : roundMag x 1 ≤ m + 1 := by omega
      exact (magUnits_strictMono.monotone hle).trans (magUnits_succ_le_double hm)
  have hdiv : roundMag (magUnits (roundMag x 1) * 2 ^ 149) (magUnits 0x41200000) ≤ m := by
    apply roundMag_le (by decide)
    rw [hten]
    nlinarith
  exact (magUnits_strictMono.monotone hdiv).trans hlo

/-- The step of a smoothing, (r - v) / 10, has the sign of r - v and is no larger. -/
theorem smoothing_step {sr sv : Bool} {mr mv : Fin F32.magBound} (hr : mr.val ≤ 0x47000000)
    (hv : mv.val ≤ 0x47000000) :
    ∃ s m, fdiv (fsub (.num sr mr) (.num sv mv)) constSmoothDiv = .num s m ∧ m.val < infMag ∧
      magUnits m.val ≤ (signedUnits sr mr.val - signedUnits sv mv.val).natAbs ∧
      (signedUnits sr mr.val - signedUnits sv mv.val ≠ 0 →
        s = decide (signedUnits sr mr.val - signedUnits sv mv.val < 0)) := by
  have hbound {m : Nat} (h : m ≤ 0x47000000) : m < infMag := h.trans_lt (by decide)
  rw [fsub, fneg, fadd_of_finite (hbound hr) (hbound hv), signedUnits_not, ← Int.sub_eq_add_neg, constSmoothDiv_eq]
  generalize hx : signedUnits sr mr.val - signedUnits sv mv.val = x
  have habs : x.natAbs ≤ 2 ^ 165 := by
    have h1 := magUnits_strictMono.monotone hr
    have h2 := magUnits_strictMono.monotone hv
    have h3 : magUnits 0x47000000 = 2 ^ 164 := by decide
    have h4 := natAbs_signedUnits sr mr.val
    have h5 := natAbs_signedUnits sv mv.val
    omega
  have hstep := magUnits_tenth_le x.natAbs
  have hquot : roundMag (magUnits (roundMag x.natAbs 1) * 2 ^ 149) (magUnits 0x41200000) < infMag :=
    lt_infMag ((hstep.trans habs).trans_lt (by decide))
  by_cases h0 : x = 0
  · subst h0
    rw [if_pos rfl, f32OfMag_of_lt _ (by decide), fdiv_of_finite (by decide) (by decide) (by decide)]
    have hz : roundMag (magUnits 0 * 2 ^ 149) (magUnits 0x41200000) ≤ 0 := roundMag_le (by decide) (by simp)
    rw [Nat.le_zero.mp hz]
    exact ⟨_, _, f32OfMag_of_lt _ (by decide), by decide, by simp, by simp⟩
  · have hdiff : roundMag x.natAbs 1 ≤ 0x47800000 := by
      have : magUnits 0x47800000 = 2 ^ 165 := by decide
      exact roundMag_le Nat.one_pos (by omega)
    have hfin : roundMag x.natAbs 1 < infMag := hdiff.trans_lt (by decide)
    rw [if_neg h0, f32OfMag_of_lt _ (lt_magBound hfin), fdiv_of_finite hfin (by decide) (by decide)]
    exact ⟨_, _, f32OfMag_of_lt _ (lt_magBound hquot), hquot, hstep, fun _ => by simp⟩

/-- Smoothing keeps a component finite and within a sample's range (41 R95). -/
theorem svBounded_smooth {v : F32} (hv : svBounded v = true) (r : BitVec 16) : svBounded (smooth v r) = true := by
  cases v with
  | nan => cases hv
  | num sv mv =>
    have hv : mv.val ≤ 0x47000000 := of_decide_eq_true hv
    have hr := BitVec.toInt_lt (x := r)
    have hr' := BitVec.le_toInt r
    obtain ⟨mr, hri, -, hmr⟩ := i2f_of_small (z := r.toInt) (by omega)
    have hB : magUnits 0x47000000 = 2 ^ 164 := by decide
    have hrB : mr.val ≤ 0x47000000 := by
      apply magUnits_strictMono.le_iff_le.mp
      rw [hmr, hB]
      omega
    obtain ⟨s, m, he, hm, hle, hs⟩ := smoothing_step (sr := decide (r.toInt < 0)) (sv := sv) hrB hv
    have hvU := natAbs_signedUnits sv mv.val
    have hrU := natAbs_signedUnits (decide (r.toInt < 0)) mr.val
    have hvB := magUnits_strictMono.monotone hv
    have hrB' := magUnits_strictMono.monotone hrB
    have hsum : (signedUnits sv mv.val + signedUnits s m.val).natAbs ≤ magUnits 0x47000000 := by
      generalize signedUnits (decide (r.toInt < 0)) mr.val = R at hle hs hrU
      generalize signedUnits sv mv.val = V at hle hs hvU
      by_cases hx : R - V = 0
      · have : magUnits m.val = 0 := by omega
        have := natAbs_signedUnits s m.val
        omega
      · rw [hs hx]
        by_cases hneg : R - V < 0 <;> simp only [signedUnits, hneg, decide_true, decide_false, if_true, if_false,
          Bool.false_eq_true] <;> omega
    obtain ⟨s', m', hadd, hm'⟩ := fadd_mag_le (hv.trans_lt (by decide)) hm (by decide) hsum
    rw [smooth, sampleF32, hri, he, hadd]
    exact decide_eq_true hm'

/-- Smoothing a whole vector (41 R95). -/
theorem svBounded_smoothVec {v : Vec3 F32} (hv : ∀ c, svBounded (v.get c) = true) (r : Vec3 (BitVec 16)) (c : Comp) :
    svBounded ((smoothVec v r).get c) = true := by
  rw [smoothVec_get]
  exact svBounded_smooth (hv c) _

theorem svOk_reset : SvOk State.reset := by
  intro q c
  cases q <;> cases c <;> decide

/-- The bound looks at SV_* alone. -/
theorem SvOk.of_sv_eq {s t : State} (h : SvOk s) (hsv : t.sv = s.sv) : SvOk t := by
  unfold SvOk
  rw [hsv]
  exact h

end Sys2Proof.Machine
end

section
/-! SUPPORT. The SAMPLER's step, one equation per state it starts from (41_sampling.md R91, R94, R95, R99). -/

namespace Sys2Proof.Machine

variable {s : State} {q : Sensor}

/-! ### Its turn, by SMP_SEQ -/

theorem samplerTurn_boot (hq : s.smpSeq = .boot q) :
    samplerTurn exec s = samplerRequest exec (initWord s.params q) (.bootWait q) s := by
  rw [samplerTurn, hq]

theorem samplerTurn_bootWait_of_done (hq : s.smpSeq = .bootWait q) (hd : statusDone s.engStatus = true) :
    samplerTurn exec s = .next { s with smpSeq := bootNext q } := by
  simp [samplerTurn, hq, hd]

theorem samplerTurn_bootWait_of_not_done (hq : s.smpSeq = .bootWait q) (hd : statusDone s.engStatus = false) :
    samplerTurn exec s = .next s := by
  simp [samplerTurn, hq, hd]

theorem samplerTurn_idle_of_pending (hq : s.smpSeq = .idle) (hp : s.smpPend = true) :
    samplerTurn exec s =
      samplerRequest exec (readWord s.params s.sched) (.sampling s.sched) { s with smpPend := false } := by
  simp [samplerTurn, hq, hp]

theorem samplerTurn_idle_of_not_pending (hq : s.smpSeq = .idle) (hp : s.smpPend = false) :
    samplerTurn exec s = .next s := by
  simp [samplerTurn, hq, hp]

theorem samplerTurn_sampling_of_not_done (hq : s.smpSeq = .sampling q) (hd : statusDone s.engStatus = false) :
    samplerTurn exec s = .next s := by
  simp [samplerTurn, hq, hd]

/-! ### Its requests, in an idle ENGINE -/

theorem samplerRequest_initWord (hi : s.engSeq = .idle) (p : Params) (q : Sensor) (g : SmpSeq) :
    samplerRequest exec (initWord p q) g s =
      .next { beginTxn .writeByte (p.dev.get q) (p.initReg.get q) 1 (initWord p q) s with smpSeq := g } := by
  rw [samplerRequest, submit_initWord hi]

theorem samplerRequest_readWord (hi : s.engSeq = .idle) (p : Params) (q : Sensor) (g : SmpSeq) :
    samplerRequest exec (readWord p q) g s =
      .next { beginTxn .readBurst (p.dev.get q) (p.regOut.get q) 6 (readWord p q) s with smpSeq := g } := by
  rw [samplerRequest, submit_readWord hi]

/-- Everything a step of the SAMPLER that answers a next state has done, with the request it made: a hold, INIT of a sensor
at boot, READXYZ of SCHED's sensor for a pending tick, the end of a boot wait, or a sample finish. -/
theorem samplerTurn_cases {t : State} (h : samplerTurn exec s = .next t) :
    t = s ∨
    (∃ q, s.smpSeq = .boot q ∧ s.engSeq = .idle ∧
      t = { beginTxn .writeByte (s.params.dev.get q) (s.params.initReg.get q) 1 (initWord s.params q) s with
        smpSeq := .bootWait q }) ∨
    (s.smpSeq = .idle ∧ s.engSeq = .idle ∧
      t = { beginTxn .readBurst (s.params.dev.get s.sched) (s.params.regOut.get s.sched) 6 (readWord s.params s.sched)
        { s with smpPend := false } with smpSeq := .sampling s.sched }) ∨
    (∃ q, s.smpSeq = .bootWait q ∧ statusDone s.engStatus = true ∧ t = { s with smpSeq := bootNext q }) ∨
    (∃ q, s.smpSeq = .sampling q ∧ statusDone s.engStatus = true ∧ sampleFinish q s = .next t) := by
  cases hq : s.smpSeq with
  | boot q =>
    rw [samplerTurn_boot hq] at h
    obtain ⟨hi, -⟩ := samplerRequest_next h
    rw [samplerRequest_initWord hi] at h
    cases h
    exact .inr (.inl ⟨q, rfl, hi, rfl⟩)
  | bootWait q =>
    cases hd : statusDone s.engStatus with
    | true =>
      rw [samplerTurn_bootWait_of_done hq hd] at h
      cases h
      exact .inr (.inr (.inr (.inl ⟨q, rfl, rfl, rfl⟩)))
    | false =>
      rw [samplerTurn_bootWait_of_not_done hq hd] at h
      cases h
      exact .inl rfl
  | idle =>
    cases hp : s.smpPend with
    | true =>
      rw [samplerTurn_idle_of_pending hq hp] at h
      obtain ⟨hi, -⟩ := samplerRequest_next h
      rw [samplerRequest_readWord hi] at h
      cases h
      exact .inr (.inr (.inl ⟨rfl, hi, rfl⟩))
    | false =>
      rw [samplerTurn_idle_of_not_pending hq hp] at h
      cases h
      exact .inl rfl
  | sampling q =>
    cases hd : statusDone s.engStatus with
    | true =>
      rw [samplerTurn_sampling_of_done hq hd] at h
      exact .inr (.inr (.inr (.inr ⟨q, rfl, rfl, h⟩)))
    | false =>
      rw [samplerTurn_sampling_of_not_done hq hd] at h
      cases h
      exact .inl rfl

/-- What an accept writes into ENG_STATUS is 0x01 (40 R73). -/
theorem statusWord_busy : statusWord true false false = 0x01#8 := by decide

/-- What a completion writes into ENG_STATUS is 0x02, and an abort 0x06 (40 R78, 60 R123). -/
theorem statusWord_completed : statusWord false true false = 0x02#8 := by decide

theorem statusWord_failed : statusWord false true true = 0x06#8 := by decide

/-! ### The SAMPLER runs WRB and RDN (41 R88, R89) -/

/-- A request the SAMPLER writes runs the instruction its word decodes to. -/
theorem samplerRequest_of_exec {w : Word} {i : Instr} {g : SmpSeq} {t : State} (hi : s.engSeq = .idle)
    (hd : decode (.req w) = .ok i) (he : exec i s = .next t) :
    samplerRequest exec w g s = .next { t with smpSeq := g } := by
  simp [samplerRequest, submit, hi, hd, he]

/-- Settles O6: both request words decode to the instruction named, which the accept runs in the SAMPLER's step. -/
theorem stepRunsSamplerRequest : Obligations.StepRunsSamplerRequest := by
  intro s t hu hr hi
  rw [step_sampler hu hr]
  refine ⟨fun q hq he => ?_, fun hq hp he => ?_⟩
  · rw [samplerTurn_boot (by simpa using hq), beforeTurn_params]
    exact samplerRequest_of_exec (by simpa using hi) (decode_initWord _ _) he
  · rw [← beforeTurn_params s, ← beforeTurn_sched s] at he
    rw [samplerTurn_idle_of_pending (by simpa using hq) (by simpa using hp), ← beforeTurn_sched s]
    exact samplerRequest_of_exec (by simpa using hi) (decode_readWord _ _) he

/-! ### Boot (41 R91) -/

/-- Settles O27: the INIT request is accepted by the idle ENGINE, and the wait goes on by `bootNext` once DONE = 1. -/
theorem bootSequence : Obligations.BootSequence := by
  intro s q hu hr
  rw [step_sampler hu hr]
  have hdone (q : Sensor) (hq : s.smpSeq = .bootWait q) (hd : statusDone s.engStatus = true) :
      samplerTurn exec (beforeTurn s) = .next { beforeTurn s with smpSeq := bootNext q } :=
    samplerTurn_bootWait_of_done (by simpa using hq) (by simpa using hd)
  refine ⟨fun hq hi => ?_, hdone .acc, hdone .gyr, hdone .mag, fun hq hd => ?_⟩
  · rw [samplerTurn_boot (by simpa using hq), samplerRequest_initWord (by simpa using hi), beforeTurn_params, beginTxn,
      statusWord_busy, initWord]
  · exact samplerTurn_bootWait_of_not_done (by simpa using hq) (by simpa using hd)

/-! ### Sample start (41 R94) -/

/-- Settles O28: the READXYZ request of the sensor SCHED names is accepted by the idle ENGINE; without a tick the SAMPLER
holds. -/
theorem sampleStart : Obligations.SampleStart := by
  intro s hu hr hq hi
  rw [step_sampler hu hr]
  refine ⟨fun hp => ⟨readWord s.params s.sched, ?_, ?_⟩, fun hp => ?_⟩
  · rw [readWord, toNat_reqWord]
    simp only [BitVec.toNat_ofNat]
    omega
  · rw [← beforeTurn_params s, ← beforeTurn_sched s,
      samplerTurn_idle_of_pending (by simpa using hq) (by simpa using hp), samplerRequest_readWord (by simpa using hi),
      beginTxn, statusWord_busy]
  · exact samplerTurn_idle_of_not_pending (by simpa using hq) (by simpa using hp)

/-! ### Sample finish (41 R90, R95) -/

/-- Settles O29: the six bytes are decoded into the raw sample, which `smoothVec` works into the sensor's vector alone. -/
theorem sampleFinishSmooths : Obligations.SampleFinishSmooths := by
  intro s q b0 b1 b2 b3 b4 b5 hu hr hq hd hf h0 h1 h2 h3 h4 h5
  have hraw : sampleRaw q (beforeTurn s) = some (decodeSample (s.params.axisOrder.get q) b0 b1 b2 b3 b4 b5) := by
    rw [← beforeTurn_params s]
    exact sampleRaw_of_bytes q (by simpa using h0) (by simpa using h1) (by simpa using h2) (by simpa using h3)
      (by simpa using h4) (by simpa using h5)
  refine ⟨s.sv.set q (smoothVec (s.sv.get q) (decodeSample (s.params.axisOrder.get q) b0 b1 b2 b3 b4 b5)),
    (beforeTurn s).draws + 6, ?_, fun c => ?_, fun q' hne => ?_⟩
  · rw [step_sampler hu hr, samplerTurn_sampling_of_done (by simpa using hq) (by simpa using hd),
      sampleFinish_of_raw (by simpa using hf) hraw, sampleEnd, beforeTurn_sv]
  · rw [PerSensor.get_set, if_pos rfl, smoothVec_get, decodeSample, sampleWord, sampleWord, sampleWord]
  · rw [PerSensor.get_set, if_neg hne]

/-- A sample word is its high byte times 256 plus its low byte, in two's complement (20 R44). -/
theorem sampleWord_toInt (hi lo : Byte) : (sampleWord hi lo).toInt =
    if hi.toNat < 128 then (hi.toNat * 256 + lo.toNat : Int) else (hi.toNat * 256 + lo.toNat : Int) - 65536 := by
  have h := toNat_append_eq_add hi lo
  rw [sampleWord, BitVec.toInt_eq_toNat_cond, h]
  split <;> split <;> omega

/-- Settles O30: the six orders one by one, and the value of a word. -/
theorem sampleWordsToComponents : Obligations.SampleWordsToComponents :=
  ⟨fun o _ _ _ _ _ _ => by cases o <;> rfl, sampleWord_toInt⟩

end Sys2Proof.Machine
end

section
/-! SUPPORT. Who writes what (10_state.md R16, 20_memory.md R52): what each agent's turn leaves as it was. -/

namespace Sys2Proof.Machine

/-- The turn releases reset. -/
def Turn.IsRelease (u : Turn) : Prop := ∃ busy err b held, u = .sys (.releaseReset busy err b held)

theorem isRelease_release (busy err : Bool) (b : Byte) (held : Bool) :
    Turn.IsRelease (.sys (.releaseReset busy err b held)) := ⟨busy, err, b, held, rfl⟩

theorem not_isRelease {u : Turn} (h : ∀ busy err b held, u ≠ .sys (.releaseReset busy err b held)) :
    ¬ u.IsRelease := fun ⟨busy, err, b, held, hu⟩ => h busy err b held hu

variable {s t : State} {u : Turn}

/-! ### One agent at a time -/

/-- A client's request writes ENG_REQ, ENG_STATUS and ENG_SEQ alone. -/
theorem submit_frame {w : Word} (h : submit exec w s = .next t) :
    t = { s with engReq := t.engReq, engStatus := t.engStatus, engSeq := t.engSeq } := by
  obtain ⟨-, op, dev, reg, n, w', -, -, -, -, rfl⟩ := submit_next h
  rfl

/-- What a step of the SAMPLER leaves as it was: CONTROL's state, BUSCTL's inputs, the buffers and the parameters. -/
theorem SamplerStep.frame (h : SamplerStep s t) :
    t.kf = s.kf ∧ t.ierr = s.ierr ∧ t.tvec = s.tvec ∧ t.pwmWidth = s.pwmWidth ∧ t.torque = s.torque ∧ t.cfg = s.cfg ∧
      t.bcErr = s.bcErr ∧ t.bcDrIn = s.bcDrIn ∧ t.bcBusy = s.bcBusy ∧ t.rxbuf = s.rxbuf ∧ t.txbuf = s.txbuf ∧
      t.params = s.params := by
  cases h <;> exact ⟨rfl, rfl, rfl, rfl, rfl, rfl, rfl, rfl, rfl, rfl, rfl, rfl⟩

/-- Of SV_* a step of the SAMPLER writes at most the vector of the sensor it is sampling. -/
theorem SamplerStep.get_sv_of_ne {q : Sensor} (h : SamplerStep s t) (hq : s.smpSeq ≠ .sampling q) :
    t.sv.get q = s.sv.get q := by
  cases h with
  | read q' raw at_ =>
    rw [sampleEnd_sv, PerSensor.get_set, if_neg]
    rintro rfl
    exact hq at_
  | _ => rfl

/-! ### The SAMPLER's state -/

/-- SV_*, SCHED and SMP_SEQ change in no turn but the SAMPLER's and a release of reset. -/
theorem TurnStep.sampler_frame (h : TurnStep s u t) (hr : ¬ u.IsRelease) (hs : u ≠ .sys .sampler) :
    t.sv = s.sv ∧ t.sched = s.sched ∧ t.smpSeq = s.smpSeq := by
  cases h with
  | engine t _ h =>
    obtain ⟨hsv, hsched, hseq, -⟩ := engineTurn_frame h
    exact ⟨hsv, hsched, hseq⟩
  | sampler t _ h => exact absurd rfl hs
  | complete err b held t h =>
    obtain ⟨-, rfl⟩ := busComplete_next h
    exact ⟨rfl, rfl, rfl⟩
  | releaseReset busy err b held _ => exact absurd (isRelease_release busy err b held) hr
  | request w t _ h =>
    rw [submit_frame h]
    exact ⟨rfl, rfl, rfl⟩
  | _ => exact ⟨rfl, rfl, rfl⟩

/-- Of SV_* every turn but a release of reset writes at most the vector of the sensor being sampled. -/
theorem TurnStep.get_sv_of_ne {q : Sensor} (h : TurnStep s u t) (hr : ¬ u.IsRelease) (hq : s.smpSeq ≠ .sampling q) :
    t.sv.get q = s.sv.get q := by
  by_cases hs : u = .sys .sampler
  · subst hs
    cases h with
    | stay => rfl
    | sampler t _ h => exact (samplerTurn_next h).get_sv_of_ne hq
  · rw [(h.sampler_frame hr hs).1]

/-- Settles O34: a turn of another agent has SV_*, SCHED and SMP_SEQ in its frame, the SAMPLER's the other vectors. -/
theorem onlySamplerWritesVectors : Obligations.OnlySamplerWritesVectors := by
  intro s t h hr
  have hstep := step_next h
  refine ⟨fun hs => ?_, fun q hq => ?_⟩
  · simpa using hstep.sampler_frame (not_isRelease hr) hs
  · simpa using hstep.get_sv_of_ne (not_isRelease hr) (q := q) (by simpa using hq)

/-- Settles O33: SV_* changes in a sample finish, which smooths one vector, and in a release of reset, which clears it. -/
theorem smoothedVectorsStayBounded : Obligations.SmoothedVectorsStayBounded := by
  intro s t hs h
  have hs : SvOk (beforeTurn s) := hs.of_sv_eq (beforeTurn_sv s)
  have hstep := step_next h
  by_cases hr : (nextTurn s).IsRelease
  · obtain ⟨busy, err, b, held, hu⟩ := hr
    rw [hu] at hstep
    cases hstep with
    | stay => exact hs
    | releaseReset => exact svOk_reset.of_sv_eq (resetBlock_sv ..)
  by_cases hsmp : nextTurn s = .sys .sampler
  · rw [hsmp] at hstep
    cases hstep with
    | stay => exact hs
    | sampler t _ h =>
      cases samplerTurn_next h with
      | read q raw =>
        intro q' c
        rw [sampleEnd_sv, PerSensor.get_set]
        split
        · exact svBounded_smoothVec (hs q) raw c
        · exact hs q' c
      | _ => exact hs.of_sv_eq rfl
  · exact hs.of_sv_eq (hstep.sampler_frame hr hsmp).1

/-! ### A pending tick -/

/-- SMP_PEND falls in no turn but the SAMPLER's and a release of reset. -/
theorem TurnStep.keeps_pending (h : TurnStep s u t) (hr : ¬ u.IsRelease) (hs : u ≠ .sys .sampler)
    (hp : s.smpPend = true) : t.smpPend = true := by
  cases h with
  | engine t _ h =>
    obtain ⟨-, -, -, hpend, -⟩ := engineTurn_frame h
    rw [hpend, hp]
  | sampler t _ h => exact absurd rfl hs
  | complete err b held t h =>
    obtain ⟨-, rfl⟩ := busComplete_next h
    exact hp
  | tickS => rfl
  | releaseReset busy err b held _ => exact absurd (isRelease_release busy err b held) hr
  | request w t _ h =>
    rw [submit_frame h]
    exact hp
  | _ => exact hp

/-- The SAMPLER clears SMP_PEND only where it starts a sample. -/
theorem samplerTurn_clears_pending (h : samplerTurn exec s = .next t) (hp : s.smpPend = true)
    (hc : t.smpPend = false) : s.smpSeq = .idle ∧ t.smpSeq = .sampling s.sched := by
  have hkept (heq : t.smpPend = s.smpPend) : False := by simp [heq, hp] at hc
  rcases samplerTurn_cases h with rfl | ⟨q, -, -, rfl⟩ | ⟨hq, -, rfl⟩ | ⟨q, -, -, rfl⟩ | ⟨q, -, -, hf⟩
  · exact (hkept rfl).elim
  · exact (hkept rfl).elim
  · exact ⟨hq, rfl⟩
  · exact (hkept rfl).elim
  · rcases sampleFinish_next hf with ⟨-, rfl⟩ | ⟨-, raw, -, rfl⟩ <;> exact (hkept rfl).elim

/-- Settles O35: a turn that clears SMP_PEND is a release of reset or the SAMPLER's, and then it starts a sample. -/
theorem pendingTickIsKeptUntilServed : Obligations.PendingTickIsKeptUntilServed := by
  intro s t h hp hc
  have hstep := step_next h
  by_cases hr : (nextTurn s).IsRelease
  · exact .inr hr
  by_cases hs : nextTurn s = .sys .sampler
  · rw [hs] at hstep
    cases hstep with
    | stay => simp [hp] at hc
    | sampler t _ h =>
      have hstart := samplerTurn_clears_pending h (by simpa using hp) hc
      exact .inl ⟨hs, by simpa using hstart⟩
  · have hkept := hstep.keeps_pending hr hs (by simpa using hp)
    simp [hkept] at hc

/-! ### CONTROL's and the HOST's state -/

/-- KF, IERR, TVEC and PWM_WIDTH change in no turn but a CONTROL_TICK's and a release of reset. -/
theorem TurnStep.control_frame (h : TurnStep s u t) (hr : ¬ u.IsRelease)
    (hc : ∀ v, u ≠ .sys (.event 0b010#3 v)) :
    t.kf = s.kf ∧ t.ierr = s.ierr ∧ t.tvec = s.tvec ∧ t.pwmWidth = s.pwmWidth := by
  cases h with
  | engine t _ h =>
    obtain ⟨-, -, -, -, hkf, hierr, htvec, hpwm, -⟩ := engineTurn_frame h
    exact ⟨hkf, hierr, htvec, hpwm⟩
  | sampler t _ h =>
    obtain ⟨hkf, hierr, htvec, hpwm, -⟩ := (samplerTurn_next h).frame
    exact ⟨hkf, hierr, htvec, hpwm⟩
  | complete err b held t h =>
    obtain ⟨-, rfl⟩ := busComplete_next h
    exact ⟨rfl, rfl, rfl, rfl⟩
  | tickC v _ => exact absurd rfl (hc v)
  | releaseReset busy err b held _ => exact absurd (isRelease_release busy err b held) hr
  | request w t _ h =>
    rw [submit_frame h]
    exact ⟨rfl, rfl, rfl, rfl⟩
  | _ => exact ⟨rfl, rfl, rfl, rfl⟩

/-- How KF, IERR, TVEC and PWM_WIDTH can have changed: not at all, by a control tick, or by a release of reset. -/
theorem TurnStep.control_cases (h : TurnStep s u t) :
    (t.kf = s.kf ∧ t.ierr = s.ierr ∧ t.tvec = s.tvec ∧ t.pwmWidth = s.pwmWidth) ∨
    t = controlTickWith (measurements s) s ∨ ∃ busy err b held, t = resetBlock busy err b held s := by
  by_cases hr : u.IsRelease
  · obtain ⟨busy, err, b, held, rfl⟩ := hr
    cases h with
    | stay => exact .inl ⟨rfl, rfl, rfl, rfl⟩
    | releaseReset => exact .inr (.inr ⟨busy, err, b, held, rfl⟩)
  by_cases hc : ∃ v, u = .sys (.event 0b010#3 v)
  · obtain ⟨v, rfl⟩ := hc
    cases h with
    | stay => exact .inl ⟨rfl, rfl, rfl, rfl⟩
    | tickC => exact .inr (.inl rfl)
  · exact .inl (h.control_frame hr fun v hu => hc ⟨v, hu⟩)

/-- TORQUE and CFG change in no turn but their writes and a release of reset. -/
theorem TurnStep.torque_cfg_frame (h : TurnStep s u t) (hr : ¬ u.IsRelease) :
    ((∀ v, u ≠ .sys (.event 0b011#3 v)) → t.torque = s.torque) ∧
      ((∀ v, u ≠ .sys (.event 0b100#3 v)) → t.cfg = s.cfg) := by
  cases h with
  | engine t _ h =>
    obtain ⟨-, -, -, -, -, -, -, -, htorque, hcfg, -⟩ := engineTurn_frame h
    exact ⟨fun _ => htorque, fun _ => hcfg⟩
  | sampler t _ h =>
    obtain ⟨-, -, -, -, htorque, hcfg, -⟩ := (samplerTurn_next h).frame
    exact ⟨fun _ => htorque, fun _ => hcfg⟩
  | complete err b held t h =>
    obtain ⟨-, rfl⟩ := busComplete_next h
    exact ⟨fun _ => rfl, fun _ => rfl⟩
  | torq v _ => exact ⟨fun h => absurd rfl (h v), fun _ => rfl⟩
  | cfg v _ => exact ⟨fun _ => rfl, fun h => absurd rfl (h v)⟩
  | releaseReset busy err b held _ => exact absurd (isRelease_release busy err b held) hr
  | request w t _ h =>
    rw [submit_frame h]
    exact ⟨fun _ => rfl, fun _ => rfl⟩
  | _ => exact ⟨fun _ => rfl, fun _ => rfl⟩

/-- How CFG can have changed: not at all, or to 0 or 1, by its write or by a release of reset. -/
theorem TurnStep.cfg_cases (h : TurnStep s u t) : t.cfg = s.cfg ∨ ∃ m, t.cfg = cfgOf m := by
  by_cases hr : u.IsRelease
  · obtain ⟨busy, err, b, held, rfl⟩ := hr
    cases h with
    | stay => exact .inl rfl
    | releaseReset => exact .inr ⟨_, rfl⟩
  by_cases hc : ∃ v, u = .sys (.event 0b100#3 v)
  · obtain ⟨v, rfl⟩ := hc
    cases h with
    | stay => exact .inl rfl
    | cfg => exact .inr ⟨_, rfl⟩
  · exact .inl ((h.torque_cfg_frame hr).2 fun v hu => hc ⟨v, hu⟩)

/-- Settles O49: outside a release the frame of every other turn holds CONTROL's registers, TORQUE and CFG. -/
theorem controlStateHasOneWriter : Obligations.ControlStateHasOneWriter := by
  intro s t h hr
  have hstep := step_next h
  obtain ⟨htorque, hcfg⟩ := hstep.torque_cfg_frame (not_isRelease hr)
  exact ⟨fun hc => by simpa using hstep.control_frame (not_isRelease hr) hc, by simpa using htorque, by simpa using hcfg⟩

/-! ### BUSCTL's inputs -/

/-- BC_ERR and BC_DR_IN change, and BC_BUSY falls, in no turn but a completion and a release of reset. -/
theorem TurnStep.bus_frame (h : TurnStep s u t) (hr : ¬ u.IsRelease)
    (hc : ∀ err b held, u ≠ .sys (.complete err b held)) :
    t.bcErr = s.bcErr ∧ t.bcDrIn = s.bcDrIn ∧ (s.bcBusy = true → t.bcBusy = true) := by
  cases h with
  | engine t _ h =>
    obtain ⟨-, -, -, -, -, -, -, -, -, -, -, -, herr, hin, hbusy⟩ := engineTurn_frame h
    exact ⟨herr, hin, hbusy⟩
  | sampler t _ h =>
    obtain ⟨-, -, -, -, -, -, herr, hin, hbusy, -⟩ := (samplerTurn_next h).frame
    exact ⟨herr, hin, fun hb => hbusy.trans hb⟩
  | complete err b held => exact absurd rfl (hc err b held)
  | releaseReset busy err b held _ => exact absurd (isRelease_release busy err b held) hr
  | request w t _ h =>
    rw [submit_frame h]
    exact ⟨rfl, rfl, id⟩
  | _ => exact ⟨rfl, rfl, id⟩

/-- Settles O25: a turn that is no completion and no release has the three inputs in its frame. -/
theorem busInputsChangeOnlyByCompletion : Obligations.BusInputsChangeOnlyByCompletion := by
  intro s t h
  by_cases hc : ∃ err b held, nextTurn s = .sys (.complete err b held)
  · exact .inl hc
  by_cases hr : (nextTurn s).IsRelease
  · exact .inr (.inl hr)
  have hframe := (step_next h).bus_frame hr fun err b held hu => hc ⟨err, b, held, hu⟩
  exact .inr (.inr (by simpa using hframe))

end Sys2Proof.Machine
end

section
/-! SUPPORT. What the covariance and the estimate of a filter step depend on (42_kalman.md R104, R105, R107, R109). -/

namespace Sys2Proof.Machine

/-! ### The covariance (42 R107) -/

theorem SameCov.refl (a : Kf) : SameCov a a := ⟨rfl, rfl, rfl, rfl, rfl, rfl, rfl, rfl, rfl⟩

/-- A filter with the same P differs in x alone. -/
theorem SameCov.eq_with_x {a b : Kf} (h : SameCov a b) : b = { a with x0 := b.x0, x1 := b.x1, x2 := b.x2 } := by
  obtain ⟨h00, h01, h02, h10, h11, h12, h20, h21, h22⟩ := h
  rw [h00, h01, h02, h10, h11, h12, h20, h21, h22]

theorem SameCov.kfPredict {a b : Kf} (h : SameCov a b) : SameCov (kfPredict a) (kfPredict b) := by
  rw [h.eq_with_x]
  exact ⟨rfl, rfl, rfl, rfl, rfl, rfl, rfl, rfl, rfl⟩

/-- The gains and the new P of a correction read P alone. -/
theorem SameCov.kfCorrect {a b : Kf} (h : SameCov a b) (z1 z2 z1' z2' : F32) :
    SameCov (kfCorrect a z1 z2) (kfCorrect b z1' z2') := by
  rw [h.eq_with_x]
  exact ⟨rfl, rfl, rfl, rfl, rfl, rfl, rfl, rfl, rfl⟩

theorem SameCov.kfStep {a b : Kf} (h : SameCov a b) (z1 z2 z1' z2' : F32) :
    SameCov (kfStep a z1 z2) (kfStep b z1' z2') := h.kfPredict.kfCorrect z1 z2 z1' z2'

/-- Settles O38: prediction, gains and correction read of a filter its P alone. -/
theorem covarianceIgnoresMeasurements : Obligations.CovarianceIgnoresMeasurements :=
  fun _ _ z1 z2 z1' z2' h => h.kfStep z1 z2 z1' z2'

/-- Settles O39: KF changes in a control tick, which steps all three filters, and in a release, which resets all three. -/
theorem axesShareCovariance : Obligations.AxesShareCovariance := by
  refine ⟨⟨SameCov.refl _, SameCov.refl _⟩, fun s t hrp hpy h => ?_⟩
  rcases (step_next h).control_cases with ⟨hkf, -⟩ | rfl | ⟨busy, err, b, held, rfl⟩
  · rw [hkf, beforeTurn_kf]
    exact ⟨hrp, hpy⟩
  · rw [controlTickWith_kf, tickKf, beforeTurn_kf]
    exact ⟨hrp.kfStep _ _ _ _, hpy.kfStep _ _ _ _⟩
  · rw [resetBlock_kf]
    exact ⟨SameCov.refl _, SameCov.refl _⟩

/-! ### Row one of P (42 R105) -/

/-- P01 and P10 after the first step from reset: row one is not the mirror of column one. -/
theorem kfStep_reset_p01_p10 :
    (kfStep Kf.reset f32Zero f32Zero).p01 = f32OfBits 0x401F2F20#32 ∧
    (kfStep Kf.reset f32Zero f32Zero).p10 = f32OfBits 0xC3F8D34A#32 := by
  rw [kfStep, kfPredict_reset, kfCorrect, gains_firstPrediction]
  decide +kernel

/-- Settles O37: row one of `kfCorrect` as it is written, and its two values after the first step. -/
theorem covarianceRowOneUsesK11 : Obligations.CovarianceRowOneUsesK11 :=
  ⟨fun _ _ _ => ⟨rfl, rfl, rfl⟩, kfStep_reset_p01_p10⟩

/-! ### NaN (42 R109) -/

@[simp] theorem fadd_nan_left (b : F32) : fadd .nan b = .nan := by cases b <;> rfl

@[simp] theorem fadd_nan_right (a : F32) : fadd a .nan = .nan := by cases a <;> rfl

@[simp] theorem fsub_nan_left (b : F32) : fsub .nan b = .nan := fadd_nan_left _

@[simp] theorem fsub_nan_right (a : F32) : fsub a .nan = .nan := fadd_nan_right a

@[simp] theorem fmul_nan_left (b : F32) : fmul .nan b = .nan := by cases b <;> rfl

@[simp] theorem fmul_nan_right (a : F32) : fmul a .nan = .nan := by cases a <;> rfl

/-- A correction whose innovation is NaN makes all of x NaN, whatever the gains are. -/
theorem kfCorrect_x_of_nan {p : Kf} {z1 z2 : F32} (h : fsub z1 p.x0 = .nan ∨ fsub z2 p.x1 = .nan) :
    (kfCorrect p z1 z2).x0 = .nan ∧ (kfCorrect p z1 z2).x1 = .nan ∧ (kfCorrect p z1 z2).x2 = .nan := by
  rcases h with h | h <;> simp [addTwo, h]

/-- Settles O40: each NaN reaches one of the two innovations, those in x1 and x2 by the prediction of x0. -/
theorem nanPoisonsTheState : Obligations.NanPoisonsTheState := by
  intro k z1 z2 h
  apply kfCorrect_x_of_nan
  have hx0 : (kfPredict k).x0 = fadd k.x0 (fmul (fsub k.x1 k.x2) constDt) := rfl
  rw [hx0]
  rcases h with rfl | rfl | h | h | h
  · exact .inl (fsub_nan_left _)
  · exact .inr (fsub_nan_left _)
  · exact .inl (by rw [h, fadd_nan_left, fsub_nan_right])
  · exact .inl (by rw [h, fsub_nan_left, fmul_nan_left, fadd_nan_right, fsub_nan_right])
  · exact .inl (by rw [h, fsub_nan_right, fmul_nan_left, fadd_nan_right, fsub_nan_right])

end Sys2Proof.Machine
end

section
/-! SUPPORT. A step by its turn (20_memory.md R51, 60_exceptions.md R120), and what it runs. -/

namespace Sys2Proof.Machine

variable {s : State}

/-! ### The turn of a step -/

theorem step_of_turn {u : Turn} (hu : nextTurn s = u) : step s = takeTurn exec u (beforeTurn s) := by
  rw [step, stepWith, hu]

/-- A step on an event's turn while reset is not asserted. -/
theorem step_event {ev : BitVec 3} {v : Word} (hu : nextTurn s = .sys (.event ev v)) (hr : s.resetAsserted = false) :
    step s = eventTurn exec ev v (beforeTurn s) := by
  rw [step_of_turn hu, takeTurn, sysTurn, beforeTurn_resetAsserted, hr, if_neg Bool.false_ne_true]

/-- A client's request while reset is not asserted. -/
theorem step_request {w : Word} (hu : nextTurn s = .client (.request w)) (hr : s.resetAsserted = false) :
    step s = submit exec w (beforeTurn s) := by
  rw [step_of_turn hu, takeTurn]
  simp [clientTurn, hr]

/-- A client's write of TXBUF while reset is not asserted. -/
theorem step_txb {j : Nat} {b : Byte} (hu : nextTurn s = .client (.txb j b)) (hr : s.resetAsserted = false) :
    step s = clientTxb j b (beforeTurn s) := by
  rw [step_of_turn hu, takeTurn]
  simp [clientTurn, hr]

/-- A client's read of RXBUF while reset is not asserted. -/
theorem step_rxb {j : Nat} (hu : nextTurn s = .client (.rxb j)) (hr : s.resetAsserted = false) :
    step s = clientRxb j (beforeTurn s) := by
  rw [step_of_turn hu, takeTurn]
  simp [clientTurn, hr]

/-- A client's collecting read while reset is not asserted. -/
theorem step_collect (hu : nextTurn s = .client .collect) (hr : s.resetAsserted = false) :
    step s = clientCollect (beforeTurn s) := by
  rw [step_of_turn hu, takeTurn]
  simp [clientTurn, hr]

/-! ### What a turn runs -/

/-- An idle ENGINE runs the request a word decodes to. -/
theorem submit_of_idle {w : Word} {i : Instr} (hi : s.engSeq = .idle) (hd : decode (.req w) = .ok i) :
    submit exec w s = exec i s := by
  simp [submit, hi, hd]

theorem eventTurn_of_decode {ev : BitVec 3} {v : Word} {i : Instr} (hd : decode (.event ev v) = .ok i) :
    eventTurn exec ev v s = exec i s := by
  simp [eventTurn, hd]

theorem eventTurn_none (v : Word) : eventTurn exec 0b000#3 v s = .next s := rfl

theorem eventTurn_reserved {ev : BitVec 3} (v : Word) (h : ev ∈ [0b101#3, 0b110#3, 0b111#3]) :
    eventTurn exec ev v s = .refused .eventReserved := by
  simp only [List.mem_cons, List.not_mem_nil, or_false] at h
  rcases h with rfl | rfl | rfl <;> rfl

/-- With nothing on the agenda the turn is a free one of the five agents (20 R51). -/
theorem free_turn (h : s.agenda = []) :
    (∃ u, nextTurn s = .sys u) ∧ beforeTurn s = { s with bcCmd := none, draws := s.draws + 1 } := by
  unfold nextTurn beforeTurn
  rw [h]
  exact ⟨⟨_, rfl⟩, rfl⟩

/-- Settles O5: the turn and its state by the agenda, and each turn that runs an instruction by the decoder. -/
theorem stepRunsDecodedInstruction : Obligations.StepRunsDecodedInstruction := by
  refine fun s => ⟨fun u rest h => ⟨nextTurn_cons h, beforeTurn_cons h⟩, free_turn, fun hr => ⟨?_, ?_, ?_, ?_, ?_⟩⟩
  · intro w i hu hi hd
    rw [step_request hu hr, submit_of_idle (by simpa using hi) hd]
  · intro ev v i hu hd
    rw [step_event hu hr, eventTurn_of_decode hd]
  · intro v hu
    rw [step_event hu hr, eventTurn_none]
  · intro ev v hu hev
    rw [step_event hu hr, eventTurn_reserved v hev]
  · intro t hu ht hg
    rw [step_engine hu hr, engineTurn_at_issue (by simpa using ht) hg, exec_instr]
    exact ⟨rfl, fun hl => decodeCmd_key hl (dueCmd t)⟩

end Sys2Proof.Machine
end

section
/-! SUPPORT. Requests (40_i2c_engine.md R73, 60_exceptions.md R126, R127, R129): what is accepted, refused and faulted. -/

namespace Sys2Proof.Machine

variable {s : State}

/-- Settles O8: each request is an accept within its bounds, which begins the operation and writes ENG_STATUS = 0x01. -/
theorem requestsAreAccepted : Obligations.RequestsAreAccepted := by
  intro s dev reg data n hi
  have hone : 1 ≤ s.params.nmax := by unfold Params.nmax; omega
  refine ⟨?_, ?_, fun h1 h2 => ?_, fun h1 h2 hw => ?_⟩
  · exact accept_of_ready dev reg _ hi (le_refl 1) hone (by simp)
  · exact accept_of_ready dev reg _ hi (le_refl 1) hone (by simp)
  · exact accept_of_ready dev reg _ hi h1 h2 (by simp)
  · exact accept_of_ready dev reg _ hi h1 h2 fun _ => (allWritten_iff _ _).mpr hw

/-! ### Refusals and the fault of an accept -/

/-- REQ_BUSY comes first, whatever the word (60 R129). -/
theorem submit_of_active {t : Txn} (ht : s.engSeq = .active t) (w : Word) : submit exec w s = .refused .reqBusy := by
  rw [submit, ht]

theorem submit_of_undecodable {w : Word} (hi : s.engSeq = .idle) (hd : ∀ i, decode (.req w) ≠ .ok i) :
    submit exec w s = .refused .reqIllegal := by
  unfold submit
  rw [hi]
  cases h : decode (.req w) with
  | ok i => exact absurd h (hd i)
  | error e => rfl

theorem accept_of_illegal_count {op : EngOp} {n : Nat} (dev : BitVec 7) (reg : Byte) (w : Word)
    (hi : s.engSeq = .idle) (hn : n = 0 ∨ s.params.nmax < n) : accept op dev reg n w s = .refused .reqIllegal := by
  simp [accept, hi, hn]

theorem accept_of_unwritten {n j : Nat} (dev : BitVec 7) (reg : Byte) (w : Word) (hi : s.engSeq = .idle)
    (h1 : 1 ≤ n) (h2 : n ≤ s.params.nmax) (hj : j < n) (hnone : memRead s.txbuf j = none) :
    accept .writeBurst dev reg n w s = .fault .txbufUnwritten := by
  have hw : allWritten s.txbuf n = false := by
    apply eq_false_of_ne_true
    intro h
    obtain ⟨b, hb⟩ := (allWritten_iff _ _).mp h j hj
    rw [hnone] at hb
    cases hb
  have hn : ¬ (n = 0 ∨ s.params.nmax < n) := by omega
  simp [accept, hi, hn, hw]

/-- Settles O9: the write is refused by ENG_SEQ, by the decoder and by the count, in this order, and faults where a byte
to send is missing. -/
theorem requestsRefusedOrFaulted : Obligations.RequestsRefusedOrFaulted := by
  intro s w hu hr
  rw [step_request hu hr]
  refine ⟨fun t ht => ?_, fun hi hd => ?_, fun hi dev reg n hd hn => ?_, fun hi dev reg n hd h1 h2 j hj hnone => ?_⟩
  · exact submit_of_active (by simpa using ht) w
  · exact submit_of_undecodable (by simpa using hi) hd
  · have hi : (beforeTurn s).engSeq = .idle := by simpa using hi
    have hn : n.toNat = 0 ∨ (beforeTurn s).params.nmax < n.toNat := by simpa using hn
    rcases hd with hd | hd <;> rw [submit_of_idle hi hd] <;> exact accept_of_illegal_count _ _ _ hi hn
  · have hi : (beforeTurn s).engSeq = .idle := by simpa using hi
    rw [submit_of_idle hi hd]
    exact accept_of_unwritten _ _ _ hi h1 (by simpa using h2) hj (by simpa using hnone)

/-- Settles O10: a client's write goes by EBUSY, and what it leaves reads as a write does. -/
theorem txbufWriteBusyAndIdle : Obligations.TxbufWriteBusyAndIdle := by
  intro s j b hu hr
  rw [step_txb hu hr]
  refine ⟨fun hbusy => ?_, fun hidle hj => ⟨memWrite s.txbuf j b, ?_, memRead_memWrite_self _ _ _,
    fun i hi => memRead_memWrite_of_ne _ _ hi⟩⟩
  · simp [clientTxb, hbusy]
  · simp [clientTxb, hidle, Nat.not_le.mpr hj]

end Sys2Proof.Machine
end

section
/-! SUPPORT. The instructions: what `exec` can have done, and the bus commands at ISSUE (30_encoding.md R61, 40_i2c_engine.md
R74 to R77). -/

namespace Sys2Proof.Machine

variable {s : State}

/-! ### What an instruction can have done -/

/-- The four requests. -/
def Instr.IsRequest (i : Instr) : Prop :=
  (∃ dev reg, i = .rdb dev reg) ∨ (∃ dev reg d, i = .wrb dev reg d) ∨ (∃ dev reg n, i = .rdn dev reg n) ∨
    (∃ dev reg n, i = .wrn dev reg n)

/-- Everything an instruction that answers a next state has done: an accept, an issue, or one of the four events. -/
theorem exec_next {i : Instr} {t : State} (h : exec i s = .next t) :
    (Instr.IsRequest i ∧ ∃ op dev reg n w, t = beginTxn op dev reg n w s) ∨
    (∃ c x dr, i = BusCmd.instr c ∧ t = toStage x x.k .postWait (busIssue (targetByte x.dev c.rs) dr c s)) ∨
    (i = .tickS ∧ t = { s with smpPend := true }) ∨
    (i = .tickC ∧ t = controlTickWith (measurements s) s) ∨
    (∃ v, i = .torq v ∧ t = { s with torque := v }) ∨
    (∃ v, i = .cfg v ∧ t = { s with cfg := cfgOperand v }) := by
  have hissue (c : BusCmd) (h : issueCmd c s = .next t) :
      ∃ c' x dr, c.instr = BusCmd.instr c' ∧
        t = toStage x x.k .postWait (busIssue (targetByte x.dev c'.rs) dr c' s) := by
    obtain ⟨x, dr, -, -, -, -, ht⟩ := issueCmd_next h
    exact ⟨c, x, dr, rfl, ht⟩
  cases i with
  | rdb dev reg =>
    obtain ⟨-, -, -, -, ht⟩ := accept_next h
    exact .inl ⟨.inl ⟨dev, reg, rfl⟩, _, _, _, _, _, ht⟩
  | wrb dev reg d =>
    obtain ⟨-, -, -, -, ht⟩ := accept_next h
    exact .inl ⟨.inr (.inl ⟨dev, reg, d, rfl⟩), _, _, _, _, _, ht⟩
  | rdn dev reg n =>
    obtain ⟨-, -, -, -, ht⟩ := accept_next h
    exact .inl ⟨.inr (.inr (.inl ⟨dev, reg, n, rfl⟩)), _, _, _, _, _, ht⟩
  | wrn dev reg n =>
    obtain ⟨-, -, -, -, ht⟩ := accept_next h
    exact .inl ⟨.inr (.inr (.inr ⟨dev, reg, n, rfl⟩)), _, _, _, _, _, ht⟩
  | burstSendStart => exact .inr (.inl (hissue .sendStart h))
  | burstSendCont => exact .inr (.inl (hissue .sendCont h))
  | burstSendFinish => exact .inr (.inl (hissue .sendFinish h))
  | singleReceive => exact .inr (.inl (hissue .singleReceive h))
  | burstReceiveStart => exact .inr (.inl (hissue .receiveStart h))
  | burstReceiveCont => exact .inr (.inl (hissue .receiveCont h))
  | burstReceiveFinish => exact .inr (.inl (hissue .receiveFinish h))
  | tickS => cases h; exact .inr (.inr (.inl ⟨rfl, rfl⟩))
  | tickC => cases h; exact .inr (.inr (.inr (.inl ⟨rfl, rfl⟩)))
  | torq v => cases h; exact .inr (.inr (.inr (.inr (.inl ⟨v, rfl, rfl⟩))))
  | cfg v => cases h; exact .inr (.inr (.inr (.inr (.inr ⟨v, rfl, rfl⟩))))

theorem instr_mem_commands (c : BusCmd) :
    c.instr ∈ [Instr.burstSendStart, .burstSendCont, .burstSendFinish, .singleReceive, .burstReceiveStart,
      .burstReceiveCont, .burstReceiveFinish] := by
  cases c <;> decide

/-- Settles O7: the frame read off each of the six things an instruction can have done. -/
theorem instructionFrame : Obligations.InstructionFrame := by
  intro i s t h request command
  rcases exec_next h with ⟨hreq, op, dev, reg, n, w, rfl⟩ | ⟨c, x, dr, rfl, rfl⟩ | ⟨rfl, rfl⟩ | ⟨rfl, rfl⟩ |
    ⟨v, rfl, rfl⟩ | ⟨v, rfl, rfl⟩
  · have hreq : request := hreq
    simp [hreq]
  · have hcmd : command := instr_mem_commands c
    simp [hcmd]
  · simp
  · simp
  · simp
  · simp

/-! ### The bus commands at ISSUE -/

/-- Settles O14: an issue that answers a next state was the due one. -/
theorem onlyTheDueCommandIsIssued : Obligations.OnlyTheDueCommandIsIssued := by
  intro s s' c h
  rw [exec_instr] at h
  obtain ⟨x, dr, hx, hg, hc, -, -⟩ := issueCmd_next h
  exact ⟨x, hx, hg, hc⟩

/-- The whole next state of the due command's issue. -/
theorem issueCmd_eq {c : BusCmd} {x : Txn} {dr : Option Byte} (hx : s.engSeq = .active x) (hg : x.stage = .issue)
    (hc : dueCmd x = c) (hd : dueByte x s = .ok dr) :
    issueCmd c s = .next { s with
      bcSa := some (x.dev ++ BitVec.ofBool c.rs), bcDrOut := dr.or s.bcDrOut, bcCmd := some (s.params.cmdEnc.code c)
      bcBusy := true, busInFlight := some c, engSeq := .active { x with stage := .postWait } } := by
  rw [← hc, issueCmd_of_due hx hg hd]
  rfl

/-! ### What a phase sends (40 R77) -/

theorem dueByte_register {x : Txn} (hk : x.k = 0) : dueByte x s = .ok (some x.reg) := by
  rw [dueByte, if_pos hk]

theorem dueByte_read {x : Txn} (hk : 1 ≤ x.k) (ho : x.op = .readByte ∨ x.op = .readBurst) :
    dueByte x s = .ok none := by
  rw [dueByte, if_neg (by omega)]
  rcases ho with ho | ho <;> rw [ho]

theorem dueByte_writeByte {x : Txn} {w : Word} (hk : 1 ≤ x.k) (ho : x.op = .writeByte) (hw : s.engReq = some w) :
    dueByte x s = .ok (some (reqArg w)) := by
  rw [dueByte, if_neg (by omega), ho, hw]

theorem dueByte_writeBurst {x : Txn} {b : Byte} (hk : 1 ≤ x.k) (ho : x.op = .writeBurst)
    (hb : memRead s.txbuf (x.k - 1) = some b) : dueByte x s = .ok (some b) := by
  rw [dueByte, if_neg (by omega), ho, hb]

/-- Phase k ≥ 1 of a read receives data byte k - 1. -/
theorem dueCmd_read_phase {t : Txn} (hk : 1 ≤ t.k) (hr : t.op = .readByte ∨ t.op = .readBurst) :
    dueCmd t = rxCmd (t.k - 1) t.n := by
  rw [dueCmd, if_neg (by omega)]
  rcases hr with hr | hr <;> rw [hr]

/-- The last phase of a write sends with FINISH. -/
theorem dueCmd_write_last {t : Txn} (hk : 1 ≤ t.k) (hn : t.k = t.n) (hw : t.op = .writeByte ∨ t.op = .writeBurst) :
    dueCmd t = .sendFinish := by
  rw [dueCmd_write_phase hk hw, hn, txCmd_last]

/-- Settles O12: the due send of each phase, with the byte it sends. -/
theorem sendsIssue : Obligations.SendsIssue := by
  refine fun s t b ht hg => ⟨fun hk => ?_, fun ho hk hn hb => ?_, fun ho hk hn hb => ?_, fun w ho hk hn hw => ?_⟩
  · exact issueCmd_eq ht hg (dueCmd_register_phase hk) (dueByte_register hk)
  · have hc : dueCmd t = .sendCont := by
      rw [dueCmd_write_phase hk (.inr ho), txCmd_before_last (by omega)]
    exact issueCmd_eq ht hg hc (dueByte_writeBurst hk ho hb)
  · exact issueCmd_eq ht hg (dueCmd_write_last hk hn (.inr ho)) (dueByte_writeBurst hk ho hb)
  · exact issueCmd_eq ht hg (dueCmd_write_last hk hn (.inl ho)) (dueByte_writeByte hk ho hw)

/-- Settles O13: the due receive of each phase, which sends no byte. -/
theorem receivesIssue : Obligations.ReceivesIssue := by
  intro s t ht hg hk hkn ho
  have hissue {c : BusCmd} (hc : rxCmd (t.k - 1) t.n = c) := issueCmd_eq ht hg ((dueCmd_read_phase hk ho).trans hc)
    (dueByte_read hk ho)
  refine ⟨fun hn => ?_, fun hn hk1 => ?_, fun hn hk2 hlt => ?_, fun hn hlast => ?_⟩
  · exact hissue (c := .singleReceive) (by rw [hn, rxCmd_of_one])
  · exact hissue (c := .receiveStart) (by rw [hk1]; exact rxCmd_first hn)
  · exact hissue (c := .receiveCont) (rxCmd_interior (by omega) (by omega))
  · exact hissue (c := .receiveFinish) (by rw [hlast]; exact rxCmd_last hn)

end Sys2Proof.Machine
end

section
/-! SUPPORT. The ENGINE's waits, the end of a phase, the abort, and BUSCTL's completion (40_i2c_engine.md R76, R85, R86,
60_exceptions.md R123). -/

namespace Sys2Proof.Machine

variable {s : State} {x : Txn}

/-! ### The waits -/

theorem engineTurn_of_busy (hx : s.engSeq = .active x) (hb : s.bcBusy = true)
    (hg : x.stage = .preWait ∨ x.stage = .postWait) : engineTurn exec s = .next s := by
  rcases hg with hg | hg <;> simp [engineTurn, hx, hg, hb]

theorem engineTurn_preWait_of_free (hx : s.engSeq = .active x) (hg : x.stage = .preWait) (hb : s.bcBusy = false) :
    engineTurn exec s = .next (toStage x x.k .issue s) := by
  simp [engineTurn, hx, hg, hb]

/-- Settles O15: both waits hold while BC_BUSY = 1, and PRE_WAIT goes on to ISSUE without it. -/
theorem engineWaits : Obligations.EngineWaits := by
  intro s t hu hr ht
  rw [step_engine hu hr]
  refine ⟨fun hb hg => ?_, fun hb hg => ?_⟩
  · exact engineTurn_of_busy (by simpa using ht) (by simpa using hb) hg
  · exact engineTurn_preWait_of_free (by simpa using ht) hg (by simpa using hb)

/-! ### The end of a phase -/

/-- A step at the end of POST_WAIT. -/
theorem step_postWait (hu : nextTurn s = .sys .engine) (hr : s.resetAsserted = false) (hx : s.engSeq = .active x)
    (hg : x.stage = .postWait) (hb : s.bcBusy = false) : step s = .next (postWait x (beforeTurn s)) := by
  rw [step_engine hu hr, engineTurn_postWait_of_free (by simpa using hx) hg (by simpa using hb)]

theorem postWait_of_err (he : s.bcErr = true) : postWait x s = busFail x s := by
  simp [postWait, he]

theorem postWait_of_more (he : s.bcErr = false) (hk : x.k < x.n) :
    postWait x s = toStage x (x.k + 1) .preWait (capture x s) := by
  simp [postWait, he, hk]

/-- Phase 0 captures nothing. -/
theorem capture_rxbuf_of_register_phase (s : State) (hk : x.k = 0) : (capture x s).rxbuf = s.rxbuf := by
  rw [capture_rxbuf, if_neg (by omega)]

/-- Settles O16: the step is `toStage` after `capture`, whose entries are known. -/
theorem phaseEndsWithCapture : Obligations.PhaseEndsWithCapture := by
  intro s t hu hr ht hg hb he hk
  refine ⟨(capture t s).rxbuf, ?_, fun ho hk1 => ⟨memRead_capture_self s ho hk1, fun j => memRead_capture_of_ne t s⟩,
    fun h => h.elim (capture_rxbuf_of_not_readBurst s) (capture_rxbuf_of_register_phase s)⟩
  rw [step_postWait hu hr ht hg hb, postWait_of_more (by simpa using he) hk, ← capture_beforeTurn_rxbuf]
  rfl

/-- Settles O18: the step is `busFail`, which forgets RXBUF[0..n-1] of a READ_BURST. -/
theorem abortOnBusError : Obligations.AbortOnBusError := by
  intro s t hu hr ht hg hb he
  refine ⟨(busFail t s).rxbuf, ?_, fun ho j => ?_, fun ho => ?_⟩
  · have hrx : (busFail t s).rxbuf = (busFail t (beforeTurn s)).rxbuf := by simp
    rw [step_postWait hu hr ht hg hb, postWait_of_err (by simpa using he), hrx, ← statusWord_failed]
    rfl
  · rw [busFail_rxbuf, if_pos ho, memRead_rxForget]
  · rw [busFail_rxbuf, if_neg ho]

/-! ### BUSCTL's completion (40 R86) -/

/-- BC_DR_IN takes the byte of a receive that completes without error. -/
theorem drInAfter_some (c : BusCmd) (err : Bool) (b old : Byte) :
    drInAfter (some c) err b old = if c.rs = true ∧ err = false then b else old := by
  cases err <;> simp [drInAfter]

theorem step_complete {err held : Bool} {b : Byte} (hu : nextTurn s = .sys (.complete err b held)) :
    step s = busComplete err b held (beforeTurn s) := step_of_turn hu

/-- Settles O24: a completion is refused unless BC_BUSY = 1, and then BC_DR_IN goes by the command in flight. -/
theorem busCompletionContract : Obligations.BusCompletionContract := by
  intro s err held b hu
  rw [step_complete hu, busComplete, beforeTurn_bcBusy]
  refine ⟨fun hb => ?_, fun hb c hc => ⟨heldAfterCompletion (some c) err held, ?_⟩⟩
  · rw [hb, if_neg Bool.false_ne_true]
  · rw [hb, if_pos rfl, beforeTurn_busInFlight, hc, drInAfter_some, beforeTurn_bcDrIn]

end Sys2Proof.Machine
end

section
/-! SUPPORT. The invariant of the block (10_state.md R19, R21, R23, R33, R35), part by part. -/

namespace Sys2Proof.Machine

variable {s t : State} {u : Turn} {x : Txn}

/-- No turn changes the parameters (70 R140). -/
theorem TurnStep.params_eq (h : TurnStep s u t) : t.params = s.params := by
  cases h with
  | engine t _ h =>
    obtain ⟨-, -, -, -, -, -, -, -, -, -, hp, -⟩ := engineTurn_frame h
    exact hp
  | sampler t _ h =>
    obtain ⟨-, -, -, -, -, -, -, -, -, -, -, hp⟩ := (samplerTurn_next h).frame
    exact hp
  | complete err b held t h =>
    obtain ⟨-, rfl⟩ := busComplete_next h
    rfl
  | request w t _ h => rw [submit_frame h]
  | _ => rfl

/-! ### The buffers and the ENGINE -/

theorem engineOk_of_active (hx : s.engSeq = .active x) :
    EngineOk s ↔ s.engStatus = 0x01#8 ∧ TxnOk s.params.nmax x ∧ s.engReq.isSome = true ∧
      (x.op = .writeBurst → allWritten s.txbuf x.n = true) := by
  simp [EngineOk, hx]

theorem engineOk_of_idle (hi : s.engSeq = .idle) :
    EngineOk s ↔ s.engStatus = 0x00#8 ∨ s.engStatus = 0x02#8 ∨ s.engStatus = 0x06#8 := by
  simp [EngineOk, hi]

/-- Where DONE = 1, or EBUSY = 0, the ENGINE is idle. -/
theorem EngineOk.idle_of_status (he : EngineOk s)
    (h : statusDone s.engStatus = true ∨ statusEbusy s.engStatus = false) : s.engSeq = .idle := by
  cases hx : s.engSeq with
  | idle => rfl
  | active x =>
    obtain ⟨hst, -⟩ := (engineOk_of_active hx).mp he
    rw [hst] at h
    exact absurd h (by decide)

/-- The two parts of the invariant that the ENGINE's own steps work on. -/
def EngineInv (s : State) : Prop := BuffersOk s ∧ EngineOk s

/-- A capture writes below n, and so below NMAX. -/
theorem buffersOk_capture (hb : BuffersOk s) (hx : TxnOk s.params.nmax x) : BuffersOk (capture x s) := by
  obtain ⟨hrx, htx, hrxb, htxb⟩ := hb
  obtain ⟨-, hn, hk, -⟩ := hx
  unfold BuffersOk
  rw [capture_rxbuf]
  split
  · exact ⟨memWrite_rising hrx _ _, htx, memWrite_bounded hrxb (show x.k - 1 < s.params.nmax by omega) _, htxb⟩
  · exact ⟨hrx, htx, hrxb, htxb⟩

/-- An abort forgets entries below n, and so below NMAX. -/
theorem buffersOk_busFail (hb : BuffersOk s) (hx : TxnOk s.params.nmax x) : BuffersOk (busFail x s) := by
  obtain ⟨hrx, htx, hrxb, htxb⟩ := hb
  obtain ⟨-, hn, -, -⟩ := hx
  unfold BuffersOk
  rw [busFail_rxbuf]
  split
  · exact ⟨rxForget_rising hrx _, htx, rxForget_bounded hrxb hn, htxb⟩
  · exact ⟨hrx, htx, hrxb, htxb⟩

/-- An accept within its bounds puts the ENGINE into a transaction as R19 has it. -/
theorem engineInv_beginTxn {op : EngOp} {dev : BitVec 7} {reg : Byte} {n : Nat} {w : Word} (h : EngineInv s)
    (h1 : 1 ≤ n) (h2 : n ≤ s.params.nmax) (hone : op = .readByte ∨ op = .writeByte → n = 1)
    (hw : op = .writeBurst → allWritten s.txbuf n = true) : EngineInv (beginTxn op dev reg n w s) :=
  ⟨h.1, (engineOk_of_active rfl).mpr ⟨statusWord_busy, ⟨h1, h2, Nat.zero_le n, hone⟩, rfl, hw⟩⟩

/-- The end of a wait: abort and completion leave a status of an idle ENGINE, and the next phase is within n. -/
theorem engineInv_postWait (h : EngineInv s) (hx : s.engSeq = .active x) : EngineInv (postWait x s) := by
  obtain ⟨hb, he⟩ := h
  obtain ⟨hst, htxn, hreq, hw⟩ := (engineOk_of_active hx).mp he
  rcases postWait_cases x s with ⟨-, h⟩ | ⟨-, hlt, h⟩ | ⟨-, -, h⟩ <;> rw [h]
  · exact ⟨buffersOk_busFail hb htxn, (engineOk_of_idle (busFail_engSeq s x)).mpr (.inr (.inr statusWord_failed))⟩
  · have hbuf := buffersOk_capture hb htxn
    obtain ⟨h1, h2, -, hone⟩ := htxn
    exact ⟨hbuf, (engineOk_of_active (toStage_engSeq ..)).mpr ⟨hst, ⟨h1, h2, hlt, hone⟩, hreq, hw⟩⟩
  · exact ⟨buffersOk_capture hb htxn,
      (engineOk_of_idle (completeTxn_engSeq _ x)).mpr (.inr (.inl statusWord_completed))⟩

theorem engineTurn_keeps_engineInv (h : EngineInv s) (hstep : engineTurn exec s = .next t) : EngineInv t := by
  rcases engineTurn_next hstep with rfl | ⟨x, hx, ⟨-, -, rfl⟩ | ⟨-, dr, -, rfl⟩ | ⟨-, -, rfl⟩⟩
  · exact h
  · exact ⟨h.1, (engineOk_of_active (toStage_engSeq ..)).mpr ((engineOk_of_active hx).mp h.2)⟩
  · exact ⟨h.1, (engineOk_of_active (toStage_engSeq ..)).mpr ((engineOk_of_active hx).mp h.2)⟩
  · exact engineInv_postWait h hx

theorem TurnStep.keeps_engineInv (hstep : TurnStep s u t) (h : EngineInv s) : EngineInv t := by
  cases hstep with
  | engine t _ ht => exact engineTurn_keeps_engineInv h ht
  | sampler t _ ht =>
    cases samplerTurn_next ht with
    | request p g op dev reg n w idle lo hi one bytes =>
      exact engineInv_beginTxn (s := { s with smpPend := p }) h lo hi one bytes
    | _ => exact h
  | complete err b held t ht =>
    obtain ⟨-, rfl⟩ := busComplete_next ht
    exact h
  | releaseReset =>
    exact ⟨⟨List.Pairwise.nil, List.Pairwise.nil, List.forall_mem_nil _, List.forall_mem_nil _⟩, .inl rfl⟩
  | request w t _ ht =>
    obtain ⟨-, op, dev, reg, n, w', h1, h2, hone, hw, rfl⟩ := submit_next ht
    exact engineInv_beginTxn h h1 h2 hone hw
  | txb j b _ notBusy below =>
    obtain ⟨⟨hrx, htx, hrxb, htxb⟩, he⟩ := h
    have hi := he.idle_of_status (.inr notBusy)
    exact ⟨⟨hrx, memWrite_rising htx j b, hrxb, memWrite_bounded htxb below b⟩,
      (engineOk_of_idle (s := { s with txbuf := memWrite s.txbuf j b }) hi).mpr ((engineOk_of_idle hi).mp he)⟩
  | _ => exact h

/-! ### CFG and the outputs -/

theorem cfgOk_of_cfgOf {m : Bool} (h : s.cfg = cfgOf m) : CfgOk s := by
  unfold CfgOk
  rw [h]
  cases m
  · exact .inl rfl
  · exact .inr rfl

theorem TurnStep.keeps_cfgOk (hstep : TurnStep s u t) (h : CfgOk s) : CfgOk t := by
  rcases hstep.cfg_cases with heq | ⟨m, hm⟩
  · unfold CfgOk
    rwa [heq]
  · exact cfgOk_of_cfgOf hm

/-- A control tick clamps each torque and takes the widths of the four (43 R114, R116). -/
theorem outputsOk_controlTick (z : Meas) (s : State) : OutputsOk (controlTickWith z s) :=
  ⟨⟨torqueInRange_clamp _, torqueInRange_clamp _, torqueInRange_clamp _, torqueInRange_clamp _⟩, rfl⟩

theorem TurnStep.keeps_outputsOk (hstep : TurnStep s u t) (h : OutputsOk s) : OutputsOk t := by
  rcases hstep.control_cases with ⟨-, -, htvec, hpwm⟩ | rfl | ⟨busy, err, b, held, rfl⟩
  · unfold OutputsOk
    rwa [htvec, hpwm, hstep.params_eq]
  · exact outputsOk_controlTick _ s
  · exact rfl

/-! ### The whole invariant -/

theorem blockOk_beforeTurn (h : BlockOk s) : BlockOk (beforeTurn s) := by
  simpa [BlockOk, BuffersOk, EngineOk, CfgOk, OutputsOk] using h

theorem TurnStep.keeps_blockOk (hstep : TurnStep s u t) (h : BlockOk s) : BlockOk t := by
  obtain ⟨hbuf, heng, hcfg, hout⟩ := h
  obtain ⟨hbuf, heng⟩ := hstep.keeps_engineInv ⟨hbuf, heng⟩
  exact ⟨hbuf, heng, hstep.keeps_cfgOk hcfg, hstep.keeps_outputsOk hout⟩

/-- Settles O58: each part is kept by each turn, and no turn writes the parameters. -/
theorem stepKeepsBlockInvariant : Obligations.StepKeepsBlockInvariant := by
  intro s t h
  have hstep := step_next h
  exact ⟨by rw [hstep.params_eq, beforeTurn_params], fun hok => hstep.keeps_blockOk (blockOk_beforeTurn hok)⟩

theorem blockOk_reset : BlockOk State.reset :=
  ⟨⟨List.Pairwise.nil, List.Pairwise.nil, List.forall_mem_nil _, List.forall_mem_nil _⟩, .inl rfl,
    cfgOk_of_cfgOf (m := Config.params.mixEnReset) rfl, rfl⟩

/-- Settles O60: empty buffers, an idle ENGINE with a cleared status, no outputs, BOOT(ACC), and vectors of zeros. -/
theorem resetMeetsInvariants : Obligations.ResetMeetsInvariants := ⟨blockOk_reset, rfl, svOk_reset⟩

end Sys2Proof.Machine
end

section
/-! SUPPORT. The SAMPLER's invariant (41_sampling.md R91, R94, R95): what SMP_SEQ says of the ENGINE. -/

namespace Sys2Proof.Machine

variable {s t : State} {u : Turn} {x : Txn}

/-! ### The invariant, by ENG_SEQ -/

/-- While the ENGINE is active the SAMPLER waits for it: for the INIT of a boot, or for a sample of six bytes. -/
theorem samplerOk_of_active (hx : s.engSeq = .active x) :
    SamplerOk s ↔ (∃ q, s.smpSeq = .bootWait q ∧ x.op = .writeByte) ∨
      (∃ q, s.smpSeq = .sampling q ∧ x.op = .readBurst ∧ x.n = 6 ∧ RxBytes s.rxbuf (x.k - 1)) := by
  unfold SamplerOk
  rw [hx]
  cases s.smpSeq <;> simp

/-- While the ENGINE is idle a SAMPLER that waits finds DONE = 1, and the six bytes of a sample that did not fail. -/
theorem samplerOk_of_idle (hi : s.engSeq = .idle) :
    SamplerOk s ↔ (∀ q, s.smpSeq = .bootWait q → statusDone s.engStatus = true) ∧
      (∀ q, s.smpSeq = .sampling q →
        statusDone s.engStatus = true ∧ (statusFail s.engStatus = false → RxBytes s.rxbuf 6)) := by
  unfold SamplerOk
  rw [hi]
  cases s.smpSeq <;> simp

/-- A SAMPLER that is about to make a request finds the ENGINE idle. -/
theorem SamplerOk.idle_of_requesting (h : SamplerOk s) (hq : (∃ q, s.smpSeq = .boot q) ∨ s.smpSeq = .idle) :
    s.engSeq = .idle := by
  unfold SamplerOk at h
  rcases hq with ⟨q, hq⟩ | hq <;> rwa [hq] at h

/-! ### The ENGINE's steps -/

/-- After the capture of phase k of a READ_BURST the first k bytes are there. -/
theorem rxBytes_capture (ho : x.op = .readBurst) (h : RxBytes s.rxbuf (x.k - 1)) :
    RxBytes (capture x s).rxbuf x.k := by
  intro j hj
  by_cases hlast : j = x.k - 1
  · rw [hlast]
    exact ⟨_, memRead_capture_self s ho (by omega)⟩
  · rw [memRead_capture_of_ne x s hlast]
    exact h j (by omega)

theorem samplerOk_postWait (hx : s.engSeq = .active x) (he : EngineOk s) (h : SamplerOk s) :
    SamplerOk (postWait x s) := by
  obtain ⟨-, ⟨-, -, hkn, -⟩, -, -⟩ := (engineOk_of_active hx).mp he
  have hwait := (samplerOk_of_active hx).mp h
  rcases postWait_cases x s with ⟨-, hp⟩ | ⟨-, -, hp⟩ | ⟨-, hlast, hp⟩ <;> rw [hp]
  case inl =>
    have hdone : statusDone (statusWord false true true) = true := by decide
    have hfail : statusFail (statusWord false true true) ≠ false := by decide
    exact (samplerOk_of_idle rfl).mpr ⟨fun _ _ => hdone, fun _ _ => ⟨hdone, fun hf => absurd hf hfail⟩⟩
  case inr.inl =>
    exact (samplerOk_of_active (toStage_engSeq ..)).mpr
      (hwait.imp id fun ⟨q, hq, ho, hn, hrx⟩ => ⟨q, hq, ho, hn, rxBytes_capture ho hrx⟩)
  case inr.inr =>
    have hdone : statusDone (statusWord false true false) = true := by decide
    refine (samplerOk_of_idle rfl).mpr ⟨fun _ _ => hdone, fun q hq => ⟨hdone, fun _ => ?_⟩⟩
    have hq : s.smpSeq = .sampling q := hq
    rcases hwait with ⟨q', hq', -⟩ | ⟨q', -, ho, hn, hrx⟩
    · rw [hq] at hq'
      cases hq'
    · have hk : x.k = 6 := by omega
      have := rxBytes_capture ho hrx
      rwa [hk] at this

theorem engineTurn_keeps_samplerOk (he : EngineOk s) (h : SamplerOk s) (hstep : engineTurn exec s = .next t) :
    SamplerOk t := by
  rcases engineTurn_next hstep with rfl | ⟨x, hx, ⟨-, -, rfl⟩ | ⟨-, dr, -, rfl⟩ | ⟨-, -, rfl⟩⟩
  · exact h
  · exact (samplerOk_of_active (toStage_engSeq ..)).mpr ((samplerOk_of_active hx).mp h)
  · exact (samplerOk_of_active (toStage_engSeq ..)).mpr ((samplerOk_of_active hx).mp h)
  · exact samplerOk_postWait hx he h

/-! ### The SAMPLER's steps -/

theorem samplerTurn_keeps_samplerOk (he : EngineOk s) (h : SamplerOk s) (hstep : samplerTurn exec s = .next t) :
    SamplerOk t := by
  rcases samplerTurn_cases hstep with rfl | ⟨q, -, -, rfl⟩ | ⟨-, -, rfl⟩ | ⟨q, -, hd, rfl⟩ | ⟨q, -, hd, hf⟩
  · exact h
  · exact (samplerOk_of_active (x := ⟨.writeByte, s.params.dev.get q, s.params.initReg.get q, 1, 0, .preWait⟩) rfl).mpr
      (.inl ⟨q, rfl, rfl⟩)
  · exact (samplerOk_of_active (x := ⟨.readBurst, s.params.dev.get _, s.params.regOut.get _, 6, 0, .preWait⟩) rfl).mpr
      (.inr ⟨s.sched, rfl, rfl, rfl, fun j hj => absurd hj (Nat.not_lt_zero j)⟩)
  · have hi : s.engSeq = .idle := he.idle_of_status (.inl hd)
    cases q <;> exact hi
  · have hi : s.engSeq = .idle := he.idle_of_status (.inl hd)
    rcases sampleFinish_next hf with ⟨-, rfl⟩ | ⟨-, raw, -, rfl⟩ <;> exact hi

theorem TurnStep.keeps_samplerOk (hstep : TurnStep s u t) (hu : ∀ c, u ≠ .client c) (he : EngineOk s)
    (h : SamplerOk s) : SamplerOk t := by
  cases hstep with
  | engine t _ ht => exact engineTurn_keeps_samplerOk he h ht
  | sampler t _ ht => exact samplerTurn_keeps_samplerOk he h ht
  | complete err b held t ht =>
    obtain ⟨-, rfl⟩ := busComplete_next ht
    exact h
  | releaseReset => exact rfl
  | request w => exact absurd rfl (hu _)
  | txb j b => exact absurd rfl (hu _)
  | rxb j => exact absurd rfl (hu _)
  | readEngine c => exact absurd rfl (hu _)
  | _ => exact h

/-- Settles O59: the turns of the five agents keep what SMP_SEQ says of the ENGINE. -/
theorem stepKeepsSamplerInvariant : Obligations.StepKeepsSamplerInvariant := by
  intro s t hb hs hno h
  obtain ⟨-, he, -, -⟩ := blockOk_beforeTurn hb
  have hu : ∀ c, nextTurn s ≠ .client c := by
    intro c hc
    simp [noClient, hc] at hno
  exact (step_next h).keeps_samplerOk hu he (by simpa [SamplerOk] using hs)

end Sys2Proof.Machine
end

section
/-! SUPPORT. No step of the block stops (60_exceptions.md R127), and what a stuck bus holds up (70_reset_and_hazards.md
R141). -/

namespace Sys2Proof.Machine

variable {s t : State} {u : Turn} {x : Txn}

/-! ### No step of the block faults or is refused -/

/-- The byte of every phase is there. -/
theorem exists_dueByte (hx : s.engSeq = .active x) (he : EngineOk s) : ∃ dr, dueByte x s = .ok dr := by
  obtain ⟨-, ⟨-, -, hkn, -⟩, hreq, hw⟩ := (engineOk_of_active hx).mp he
  by_cases hk : x.k = 0
  · exact ⟨_, dueByte_register hk⟩
  have hk : 1 ≤ x.k := by omega
  cases ho : x.op with
  | readByte => exact ⟨_, dueByte_read hk (.inl ho)⟩
  | readBurst => exact ⟨_, dueByte_read hk (.inr ho)⟩
  | writeByte =>
    obtain ⟨w, hw⟩ := Option.isSome_iff_exists.mp hreq
    exact ⟨_, dueByte_writeByte hk ho hw⟩
  | writeBurst =>
    obtain ⟨b, hb⟩ := (allWritten_iff _ _).mp (hw ho) (x.k - 1) (by omega)
    exact ⟨_, dueByte_writeBurst hk ho hb⟩

theorem engineTurn_never_stops (he : EngineOk s) : ∃ t, engineTurn exec s = .next t := by
  cases hx : s.engSeq with
  | idle => exact ⟨s, by rw [engineTurn, hx]⟩
  | active x =>
    by_cases hg : x.stage = .issue
    · obtain ⟨dr, hd⟩ := exists_dueByte hx he
      rw [engineTurn_at_issue hx hg]
      exact ⟨_, issueCmd_of_due hx hg hd⟩
    · have hg : x.stage = .preWait ∨ x.stage = .postWait := by cases h : x.stage <;> simp_all
      cases hb : s.bcBusy with
      | true => exact ⟨_, engineTurn_of_busy hx hb hg⟩
      | false =>
        rcases hg with hg | hg
        · exact ⟨_, engineTurn_preWait_of_free hx hg hb⟩
        · exact ⟨_, engineTurn_postWait_of_free hx hg hb⟩

/-- A sample that did not fail is read. -/
theorem sampleFinish_never_stops (q : Sensor) (hrx : statusFail s.engStatus = false → RxBytes s.rxbuf 6) :
    ∃ t, sampleFinish q s = .next t := by
  cases hf : statusFail s.engStatus with
  | true => exact ⟨_, sampleFinish_of_fail hf⟩
  | false =>
    have hbytes := hrx hf
    obtain ⟨b0, h0⟩ := hbytes 0 (by decide)
    obtain ⟨b1, h1⟩ := hbytes 1 (by decide)
    obtain ⟨b2, h2⟩ := hbytes 2 (by decide)
    obtain ⟨b3, h3⟩ := hbytes 3 (by decide)
    obtain ⟨b4, h4⟩ := hbytes 4 (by decide)
    obtain ⟨b5, h5⟩ := hbytes 5 (by decide)
    exact ⟨_, sampleFinish_of_raw hf (sampleRaw_of_bytes q h0 h1 h2 h3 h4 h5)⟩

theorem samplerTurn_never_stops (he : EngineOk s) (h : SamplerOk s) : ∃ t, samplerTurn exec s = .next t := by
  cases hq : s.smpSeq with
  | boot q =>
    rw [samplerTurn_boot hq]
    exact ⟨_, samplerRequest_initWord (h.idle_of_requesting (.inl ⟨q, hq⟩)) _ _ _⟩
  | bootWait q =>
    cases hd : statusDone s.engStatus with
    | true => exact ⟨_, samplerTurn_bootWait_of_done hq hd⟩
    | false => exact ⟨_, samplerTurn_bootWait_of_not_done hq hd⟩
  | idle =>
    cases hp : s.smpPend with
    | true =>
      rw [samplerTurn_idle_of_pending hq hp]
      exact ⟨_, samplerRequest_readWord (s := { s with smpPend := false }) (h.idle_of_requesting (.inr hq)) _ _ _⟩
    | false => exact ⟨_, samplerTurn_idle_of_not_pending hq hp⟩
  | sampling q =>
    cases hd : statusDone s.engStatus with
    | true =>
      rw [samplerTurn_sampling_of_done hq hd]
      obtain ⟨-, hsampling⟩ := (samplerOk_of_idle (he.idle_of_status (.inl hd))).mp h
      exact sampleFinish_never_stops q (hsampling q hq).2
    | false => exact ⟨_, samplerTurn_sampling_of_not_done hq hd⟩

/-- An event that is not of a reserved code is none or decodes to TICK_S, TICK_C, TORQ or CFG. -/
theorem eventTurn_never_stops {ev : BitVec 3} (v : Word) (s : State) (h : ev ∉ [0b101#3, 0b110#3, 0b111#3]) :
    ∃ t, eventTurn exec ev v s = .next t := by
  have hcodes : ∀ ev : BitVec 3, ev ∉ [0b101#3, 0b110#3, 0b111#3] →
      ev = 0b000#3 ∨ ev = 0b001#3 ∨ ev = 0b010#3 ∨ ev = 0b011#3 ∨ ev = 0b100#3 := by decide
  rcases hcodes ev h with rfl | rfl | rfl | rfl | rfl <;> exact ⟨_, rfl⟩

/-- Under reset the ENGINE's, the SAMPLER's, an event's and a client's turn change nothing (70 R138). -/
theorem step_of_asserted (hr : s.resetAsserted = true)
    (hu : nextTurn s = .sys .engine ∨ nextTurn s = .sys .sampler ∨ (∃ ev v, nextTurn s = .sys (.event ev v)) ∨
      ∃ c, nextTurn s = .client c) : step s = .next (beforeTurn s) := by
  rcases hu with hu | hu | ⟨ev, v, hu⟩ | ⟨c, hu⟩ <;> simp [step_of_turn hu, takeTurn, sysTurn, clientTurn, hr]

/-- Settles O56: the four kinds of turn are held under reset. -/
theorem assertedResetFreezesTheBlock : Obligations.AssertedResetFreezesTheBlock := fun _ hr hu => step_of_asserted hr hu

/-- Settles O53: under reset the turn changes nothing, and else it answers by the two invariants. -/
theorem blockStepsNeverStop : Obligations.BlockStepsNeverStop := by
  intro s hb hs hu
  obtain ⟨-, he, -, -⟩ := blockOk_beforeTurn hb
  have hs : SamplerOk (beforeTurn s) := by simpa [SamplerOk] using hs
  cases hr : s.resetAsserted with
  | true =>
    refine ⟨_, step_of_asserted hr ?_⟩
    exact hu.imp id (Or.imp id fun ⟨ev, v, hev, _⟩ => .inl ⟨ev, v, hev⟩)
  | false =>
    rcases hu with hu | hu | ⟨ev, v, hu, hev⟩
    · rw [step_engine hu hr]
      exact engineTurn_never_stops he
    · rw [step_sampler hu hr]
      exact samplerTurn_never_stops he hs
    · rw [step_event hu hr]
      exact eventTurn_never_stops v _ hev

/-! ### A stuck bus (70 R141) -/

theorem stuckBus_iff : stuckBus s = true ↔
    s.bcBusy = true ∧ s.engStatus = 0x01#8 ∧
      (∃ x, s.engSeq = .active x ∧ (x.stage = .preWait ∨ x.stage = .postWait)) ∧
      ∃ q, s.smpSeq = .bootWait q ∨ s.smpSeq = .sampling q := by
  unfold stuckBus engineWaiting
  cases s.engSeq <;> cases s.smpSeq <;> simp [and_assoc, and_comm]

/-- While the bus is stuck the SAMPLER holds: it waits for DONE = 1. -/
theorem samplerTurn_of_stuck (h : stuckBus s = true) : samplerTurn exec s = .next s := by
  obtain ⟨-, hst, -, q, hq | hq⟩ := stuckBus_iff.mp h
  · exact samplerTurn_bootWait_of_not_done hq (by rw [hst]; decide)
  · exact samplerTurn_sampling_of_not_done hq (by rw [hst]; decide)

theorem engineTurn_of_stuck (h : stuckBus s = true) : engineTurn exec s = .next s := by
  obtain ⟨hb, -, ⟨x, hx, hg⟩, -⟩ := stuckBus_iff.mp h
  exact engineTurn_of_busy hx hb hg

/-- What every turn but a completion and a release keeps while the bus is stuck. -/
theorem TurnStep.keeps_stuck (hstep : TurnStep s u t) (h : stuckBus s = true) (hr : ¬ u.IsRelease)
    (hc : ∀ err b held, u ≠ .sys (.complete err b held)) :
    stuckBus t = true ∧ t.engSeq = s.engSeq ∧ t.smpSeq = s.smpSeq ∧ t.sv = s.sv ∧ t.sched = s.sched ∧
      (s.smpPend = true → t.smpPend = true) := by
  cases hstep with
  | engine t _ ht =>
    rw [engineTurn_of_stuck h] at ht
    cases ht
    exact ⟨h, rfl, rfl, rfl, rfl, id⟩
  | sampler t _ ht =>
    rw [samplerTurn_of_stuck h] at ht
    cases ht
    exact ⟨h, rfl, rfl, rfl, rfl, id⟩
  | complete err b held => exact absurd rfl (hc err b held)
  | releaseReset busy err b held _ => exact absurd (isRelease_release busy err b held) hr
  | request w t _ ht =>
    obtain ⟨hi, -⟩ := submit_next ht
    obtain ⟨-, -, ⟨x, hx, -⟩, -⟩ := stuckBus_iff.mp h
    rw [hi] at hx
    cases hx
  | tickS => exact ⟨h, rfl, rfl, rfl, rfl, fun _ => rfl⟩
  | _ => exact ⟨h, rfl, rfl, rfl, rfl, id⟩

theorem quiet_of_stuck (h : stuckBus s = true) : s.quiet = false := by
  obtain ⟨hb, -⟩ := stuckBus_iff.mp h
  simp [State.quiet, hb]

/-- Settles O57: a stuck ENGINE and SAMPLER hold, nothing else frees them, and CONTROL's tick does not look at them. -/
theorem stuckBusFreezesSampling : Obligations.StuckBusFreezesSampling := by
  refine ⟨fun s t h hstep hc hr => ?_, fun run h => ⟨quiet_of_stuck h, ?_⟩, fun s v _ hr hu => ?_⟩
  · have hb : stuckBus (beforeTurn s) = true := by simpa [stuckBus, engineWaiting] using h
    simpa using (step_next hstep).keeps_stuck hb (not_isRelease hr) hc
  · simp [RunSoFar.ended, quiet_of_stuck h]
  · rw [step_event hu hr]
    exact ⟨_, rfl, rfl, rfl⟩

end Sys2Proof.Machine
end

section
/-! SUPPORT. The control tick (43_control_mapper.md R111 to R114, R117 to R119): what it writes, and what it reads. -/

namespace Sys2Proof.Machine

theorem exec_tickC (s : State) : exec .tickC s = .next (controlTickWith (measurements s) s) := rfl

/-- The four torques, motor by motor (43 R113, R114). -/
theorem map_mixMotors {α : Type} (f : F32 → α) (t r p : F32) (mix : Bool) :
    (mixMotors t r p mix).map f = if mix = true then
      ⟨f (fadd t (fadd (fneg p) r)), f (fadd t (fadd p r)), f (fadd t (fsub (fneg p) r)), f (fadd t (fsub p r))⟩
    else ⟨f t, f t, f t, f t⟩ := by
  cases mix <;> rfl

theorem get_zip3 {α β γ δ : Type} (f : α → β → γ → δ) (a : PerAxis α) (b : PerAxis β) (c : PerAxis γ) (x : Axis) :
    (PerAxis.zip3 f a b c).get x = f (a.get x) (b.get x) (c.get x) := by
  cases x <;> rfl

theorem get_measurements_z2 (s : State) (a : Axis) :
    (measurements s).z2.get a = fmul (s.sv.gyr.get (s.params.gyroAxis.get a)) s.params.gyroSens := by
  cases a <;> rfl

/-- IERR adds 0 - x0 of the new filter (43 R112). -/
theorem get_tickIerr (z : Meas) (s : State) (a : Axis) :
    (tickIerr z s).get a = fadd (s.ierr.get a) (fsub f32Zero ((tickKf z s).get a).x0) := by
  cases a <;> rfl

/-- Settles O41: the tick's own stages are the witnesses, and each clause is the equation of its stage. -/
theorem controlTickCompletes : Obligations.ControlTickCompletes := by
  intro s
  exact ⟨(measurements s).z1, (measurements s).z2, tickKf (measurements s) s, tickIerr (measurements s) s,
    tickTvec (measurements s) s, exec_tickC s, rfl, rfl, rfl, get_measurements_z2 s, get_zip3 _ _ _ _,
    get_tickIerr _ s, map_mixMotors clamp _ _ _ _⟩

/-! ### What the tick reads -/

/-- The measurements read SV_*, KF and the parameters. -/
theorem measurements_congr {s s' : State} (hsv : s.sv = s'.sv) (hkf : s.kf = s'.kf) (hp : s.params = s'.params) :
    measurements s = measurements s' := by
  simp only [measurements, gyroRate, hsv, hkf, hp]

/-- Settles O42: each stage of the tick reads the snapshot, KF, IERR and the parameters alone. -/
theorem controlTickReadsOnlySnapshot : Obligations.ControlTickReadsOnlySnapshot := by
  intro s s' t t' hsv htorque hmix hkf hierr hp h h'
  have hz : measurements s = measurements s' := measurements_congr hsv hkf hp
  have hk : tickKf (measurements s) s = tickKf (measurements s') s' := by rw [tickKf, tickKf, hz, hkf]
  have he : tickIerr (measurements s) s = tickIerr (measurements s') s' := by rw [tickIerr, tickIerr, hk, hierr]
  have hterms : tickTerms (measurements s) s = tickTerms (measurements s') s' := by
    rw [tickTerms, tickTerms, hk, hierr, hz]
  have hm : tickTvec (measurements s) s = tickTvec (measurements s') s' := by
    rw [tickTvec, tickTvec, hterms, htorque, hmix]
  have hw : tickWidth (measurements s) s = tickWidth (measurements s') s' := by rw [tickWidth, tickWidth, hm, hp]
  cases h
  cases h'
  exact ⟨hk, he, congrArg some hm, congrArg some hw⟩

/-! ### MIX_EN = 0 (43 R111's example) -/

/-- With MIX_EN = 0 every motor gets the clamped torque. -/
theorem tickTvec_broadcast {s : State} (z : Meas) (h : cfgMixEn s.cfg = false) :
    tickTvec z s = ⟨clamp (torqueF32 s.torque), clamp (torqueF32 s.torque), clamp (torqueF32 s.torque),
      clamp (torqueF32 s.torque)⟩ := by
  rw [tickTvec, map_mixMotors, h, if_neg Bool.false_ne_true]

theorem clamp_torque_fifty : clamp (torqueF32 50#32) = f32OfBits 0x42480000#32 := by decide +kernel

theorem width_fifty : width 1000 (f32OfBits 0x42480000#32) = 1500#32 := by decide +kernel

/-- Settles O43: the four torques are the clamp of 50, and their widths 1500. -/
theorem broadcastTorqueTick : Obligations.BroadcastTorqueTick := by
  intro s t hmix htorque hbase h
  cases h
  have hm := tickTvec_broadcast (measurements s) hmix
  rw [htorque, clamp_torque_fifty] at hm
  rw [controlTickWith_tvec, controlTickWith_pwmWidth, tickWidth, hm, hbase, Motors.map, width_fifty]
  exact ⟨rfl, rfl⟩

/-! ### The HOST's two registers (43 R117, R118) -/

theorem cfgOf_getLsbD_zero (m : Bool) : (cfgOf m).getLsbD 0 = m := by cases m <;> decide

theorem cfgOf_getLsbD_of_pos (m : Bool) {i : Nat} (hi : 1 ≤ i) : (cfgOf m).getLsbD i = false := by
  cases m with
  | false => exact BitVec.getLsbD_zero
  | true =>
    rw [cfgOf, if_pos rfl, BitVec.getLsbD_one]
    simp
    omega

theorem cfgRead_cfgOf (m : Bool) : (cfgRead (cfgOf m)).toNat = m.toNat := by cases m <;> decide

/-- Settles O48: TORQ writes its operand, CFG the word of its operand's bit 0. -/
theorem hostRegisterWrites : Obligations.HostRegisterWrites := by
  intro s v
  refine ⟨rfl, cfgOf (v.getLsbD 0), rfl, cfgOf_getLsbD_zero _, fun i hi => cfgOf_getLsbD_of_pos _ hi, ?_⟩
  rw [cfgRead_cfgOf, BitVec.getLsbD, Nat.testBit_zero]
  rcases Nat.mod_two_eq_zero_or_one v.toNat with h | h <;> simp [h]

/-! ### The vectors of 95 sections 3.3 and 3.5 -/

/-- Settles O44: the arithmetic evaluated on the fifteen vectors. -/
theorem arithmeticVectors : Obligations.ArithmeticVectors := by
  unfold Obligations.ArithmeticVectors
  decide +kernel

end Sys2Proof.Machine
end

section
/-! SUPPORT. The width of a torque in range (43_control_mapper.md R115): B + (B * c) / 100 stays within [B, 2B]. The product
and the quotient may each be rounded up; the sum's rounding, ties to even, takes it back. -/

namespace Sys2Proof.Machine

theorem constClampHi_eq : constClampHi = .num false ⟨0x42C80000, by decide⟩ := by decide

theorem constMapDiv_eq : constMapDiv = .num false ⟨0x42C80000, by decide⟩ := by decide

theorem magUnits_hundred : magUnits 0x42C80000 = 100 * 2 ^ 149 := by decide

/-- A torque in range is a magnitude of at most 100, and -0.0 is the only one with a sign. -/
theorem torqueInRange_num {s : Bool} {m : Fin F32.magBound} (h : torqueInRange (.num s m) = true) :
    m.val ≤ 0x42C80000 ∧ (s = true → m.val = 0) := by
  have hlo : constClampLo = .num false ⟨0, by decide⟩ := by decide
  obtain ⟨-, h1, h2⟩ := torqueInRange_iff.mp h
  rw [hlo] at h1
  rw [constClampHi_eq] at h2
  have h1 : ¬ magKey s m.val < 0 := of_decide_eq_false h1
  have h2 : ¬ (0x42C80000 : Int) < magKey s m.val := of_decide_eq_false h2
  unfold magKey at h1 h2
  cases s with
  | false =>
    simp only [Bool.false_eq_true, if_false] at h2
    exact ⟨by omega, fun h => absurd h Bool.false_ne_true⟩
  | true =>
    simp only [if_true] at h1
    exact ⟨by omega, fun _ => by omega⟩

variable {base b c : Nat}

/-- The magnitude of B * c, b being the magnitude of B. -/
def scaledTorque (b c : Nat) : Nat := roundMag (magUnits b * magUnits c) (2 ^ 149)

/-- The magnitude of (B * c) / 100. -/
def widthStep (b c : Nat) : Nat := roundMag (magUnits (scaledTorque b c) * 2 ^ 149) (magUnits 0x42C80000)

/-- The product of B ≤ 2^23 and c ≤ 100 is off by at most half a unit of the last place, which is 32. -/
theorem scaledTorque_le (hB : base ≤ 2 ^ 23) (hb : magUnits b = base * 2 ^ 149) (hc : c ≤ 0x42C80000) :
    magUnits (scaledTorque b c) ≤ (100 * base + 32) * 2 ^ 149 := by
  have hprod : magUnits b * magUnits c ≤ 100 * base * 2 ^ 149 * 2 ^ 149 := by
    calc magUnits b * magUnits c ≤ base * 2 ^ 149 * (100 * 2 ^ 149) :=
          Nat.mul_le_mul hb.le (magUnits_hundred ▸ magUnits_strictMono.monotone hc)
      _ = 100 * base * 2 ^ 149 * 2 ^ 149 := by ring
  have hsmall : magUnits b * magUnits c < 2 ^ (154 + 25) * 2 ^ 149 := by omega
  have hround := magUnits_roundMag_le (Nat.two_pow_pos 149) hsmall
  unfold scaledTorque
  omega

/-- The quotient exceeds B by at most a half. Below 2^23 that bound is a datum; at 2^23 it is the middle to the next. -/
theorem widthStep_le (hB : base ≤ 2 ^ 23) (hb : magUnits b = base * 2 ^ 149) (hc : c ≤ 0x42C80000) :
    magUnits (widthStep b c) ≤ (2 * base + 1) * 2 ^ 148 := by
  have hx := scaledTorque_le hB hb hc
  rcases Nat.lt_or_eq_of_le hB with hlt | rfl
  · obtain ⟨h, hh⟩ := exists_magUnits_eq (z := 2 * base + 1) (by omega) 148 (by decide)
    have hle : widthStep b c ≤ h := roundMag_le (by decide) (by rw [hh, magUnits_hundred]; omega)
    exact hh ▸ magUnits_strictMono.monotone hle
  · have hb' : magUnits (149 * 2 ^ 23 + 2 ^ 23) = 2 ^ 23 * 2 ^ 149 := magUnits_of_scale (.inr (le_refl _)) (by decide)
    have hnext := magUnits_add_le_succ (m := 149 * 2 ^ 23 + 2 ^ 23) (k := 149) (by rw [hb']; decide)
    have hle : widthStep b c ≤ 149 * 2 ^ 23 + 2 ^ 23 := by
      refine roundMag_le_of_even (by decide) (by decide) ?_
      rw [magUnits_hundred]
      rw [hb'] at hnext ⊢
      omega
    have := magUnits_strictMono.monotone hle
    omega

/-- A sum of at most 2B and a half rounds below 2B + 1: below 2^23 the bound is a datum; from there on it is at most the
middle between 2B, which is even, and the next. -/
theorem magUnits_roundMag_width_lt {z : Nat} (hB : base ≤ 2 ^ 23) (hz : z ≤ (4 * base + 1) * 2 ^ 148) :
    magUnits (roundMag z 1) < (2 * base + 1) * 2 ^ 149 := by
  by_cases hlt : base < 2 ^ 22
  · obtain ⟨h, hh⟩ := exists_magUnits_eq (z := 4 * base + 1) (by omega) 148 (by decide)
    have hle : roundMag z 1 ≤ h := roundMag_le Nat.one_pos (by rw [hh]; omega)
    have := magUnits_strictMono.monotone hle
    omega
  · have hg : magUnits (149 * 2 ^ 23 + 2 * base) = 2 * base * 2 ^ 149 := magUnits_of_scale (.inr (by omega)) (by omega)
    have hnext := magUnits_add_le_succ (m := 149 * 2 ^ 23 + 2 * base) (k := 149) (by rw [hg]; omega)
    have hle : roundMag z 1 ≤ 149 * 2 ^ 23 + 2 * base := by
      refine roundMag_le_of_even Nat.one_pos (by omega) ?_
      rw [hg] at hnext ⊢
      omega
    have := magUnits_strictMono.monotone hle
    omega

/-- The step of a negative zero is zero, so that the step's sign makes no difference. -/
theorem signedUnits_widthStep {s : Bool} {b c : Nat} (h : s = true → c = 0) :
    signedUnits s (widthStep b c) = magUnits (widthStep b c) := by
  cases s with
  | false => rfl
  | true =>
    have hx : scaledTorque b c = 0 := Nat.le_zero.mp (roundMag_le (by decide) (by simp [h rfl]))
    have hy : widthStep b c = 0 := Nat.le_zero.mp (roundMag_le (by decide) (by simp [hx]))
    rw [hy]
    rfl

/-- The width of a torque in range: the rounded sum of B and the step, truncated. -/
theorem width_eq {s : Bool} {m : Fin F32.magBound} (h1 : 1 ≤ base) (hB : base ≤ 2 ^ 23)
    (hc : torqueInRange (.num s m) = true) :
    ∃ b, magUnits b = base * 2 ^ 149 ∧
      width base (.num s m) = f2uTrunc (f32OfMag false (roundMag (base * 2 ^ 149 + magUnits (widthStep b m.val)) 1)) := by
  obtain ⟨hm, hneg⟩ := torqueInRange_num hc
  obtain ⟨b, hi, hfin, hb⟩ := i2f_of_small (z := (base : Int)) (by omega)
  have hb : magUnits b.val = base * 2 ^ 149 := by simpa using hb
  have hx : scaledTorque b.val m.val < infMag := lt_infMag ((scaledTorque_le hB hb hm).trans_lt (by omega))
  have hy : widthStep b.val m.val < infMag := lt_infMag ((widthStep_le hB hb hm).trans_lt (by omega))
  have hz : signedUnits false b.val + signedUnits s (widthStep b.val m.val) =
      ((base * 2 ^ 149 + magUnits (widthStep b.val m.val) : Nat) : Int) := by
    rw [signedUnits_widthStep hneg, ← hb]
    rfl
  refine ⟨b.val, hb, congrArg f2uTrunc ?_⟩
  rw [hi, decide_eq_false (by omega), fmul_of_finite hfin (hm.trans_lt (by decide)), Bool.false_bne, ← scaledTorque,
    f32OfMag_of_lt _ (lt_magBound hx), constMapDiv_eq, fdiv_of_finite hx (by decide) (by decide), Bool.bne_false,
    ← widthStep, f32OfMag_of_lt _ (lt_magBound hy), fadd_of_finite hfin hy]
  simp only [hz]
  rw [if_neg (by omega), decide_eq_false (by omega), Int.natAbs_natCast]

/-- Settles O46: B is a datum, so that rounding does not go below it, and the sum rounds below 2B + 1. -/
theorem widthWithinBounds : Obligations.WidthWithinBounds := by
  intro base c h1 hB hc
  cases c with
  | nan => cases hc
  | num s m =>
    obtain ⟨b, hb, hw⟩ := width_eq h1 hB hc
    have hstep := widthStep_le hB hb (torqueInRange_num hc).1
    have hhi := magUnits_roundMag_width_lt (z := base * 2 ^ 149 + magUnits (widthStep b m.val)) hB (by omega)
    have hlo := magUnits_strictMono.monotone
      (le_roundMag (n := base * 2 ^ 149 + magUnits (widthStep b m.val)) (m := b) Nat.one_pos (by omega))
    rw [hw]
    generalize roundMag (base * 2 ^ 149 + magUnits (widthStep b m.val)) 1 = R at hhi hlo
    have hR : R < infMag := lt_infMag (by omega)
    have htrunc : magUnits R / 2 ^ 149 < 2 ^ 32 := by omega
    rw [f32OfMag_of_lt _ (lt_magBound hR), f2uTrunc, if_pos ⟨hR, .inl rfl, htrunc⟩, BitVec.toNat_ofNat,
      Nat.mod_eq_of_lt htrunc]
    omega

end Sys2Proof.Machine
end

section
/-! SUPPORT. Reads by the HOST, BUSCTL and a client (60_exceptions.md R127, R136): the value, or the fault by its name. -/

namespace Sys2Proof.Machine

variable {s : State}

/-! ### Stops -/

theorem step_hostRead {r : ReadTarget} (hu : nextTurn s = .sys (.hostRead r)) : step s = hostRead r (beforeTurn s) :=
  step_of_turn hu

theorem step_busRead {p : BusPort} (hu : nextTurn s = .sys (.busRead p)) : step s = busRead p (beforeTurn s) :=
  step_of_turn hu

theorem clientRxb_of_unwritten {j : Nat} (hj : j < s.params.nmax) (h : memRead s.rxbuf j = none) :
    clientRxb j s = .fault .rxbufUnwritten := by
  simp [clientRxb, rxByte, h, Nat.not_le.mpr hj]

/-- Settles O50: each read finds no value, and each forbidden input is refused by its turn. -/
theorem unwrittenReadsAndForbiddenInputsStop : Obligations.UnwrittenReadsAndForbiddenInputsStop := by
  refine fun s => ⟨fun r hr hu hnone => ?_, fun r hr hu hnone => ?_, fun j hu hr hj hnone => ?_, fun hu hnone => ?_,
    fun hu hnone => ?_, fun r v hu => step_of_turn hu, fun e v e' v' hu hr => ?_, fun y e b hu => step_of_turn hu⟩
  · rw [step_hostRead hu]
    rcases hr with rfl | ⟨i, rfl⟩ <;> simp [hostRead, hnone]
  · rw [step_hostRead hu]
    rcases hr with rfl | ⟨i, rfl⟩ <;> simp [hostRead, hnone]
  · rw [step_rxb hu hr]
    exact clientRxb_of_unwritten (by simpa using hj) (by simpa using hnone)
  · rw [step_busRead hu]
    simp [busRead, hnone]
  · rw [step_busRead hu]
    simp [busRead, hnone]
  · rw [step_of_turn hu]
    simp [takeTurn, sysTurn, hr]

/-! ### Values -/

/-- A step whose read gives one word. -/
theorem step_reads_word {r : ReadTarget} {w : Word} (hu : nextTurn s = .sys (.hostRead r))
    (h : hostRead r (beforeTurn s) = readWordOut w (beforeTurn s)) : ∃ t, step s = .next t ∧ t.readOut = [w] := by
  rw [step_hostRead hu, h]
  exact ⟨_, rfl, rfl⟩

/-- A step whose read gives f32 values gives words that stand for them. -/
theorem step_reads_f32 {r : ReadTarget} {l : List F32} (hu : nextTurn s = .sys (.hostRead r))
    (h : hostRead r (beforeTurn s) = readF32Out l (beforeTurn s)) :
    ∃ t, step s = .next t ∧ t.readOut.map f32OfBits = l := by
  rw [step_hostRead hu, h]
  exact ⟨_, rfl, map_f32OfBits_f32Words _ l⟩

/-- A word that is no NaN's is the word of its datum. -/
theorem f32Word_f32OfBits (p : Word) {w : Word} (h : f32OfBits w ≠ .nan) : f32Word p (f32OfBits w) = w := by
  unfold f32OfBits at h ⊢
  split
  · apply BitVec.eq_of_toNat_eq
    have := w.isLt
    simp only [f32Word, BitVec.msb_eq_decide, BitVec.toNat_ofNat, decide_eq_true_eq]
    split <;> omega
  · rename_i hnan
    rw [dif_neg hnan] at h
    exact absurd rfl h

theorem Motors.toList_eq {α : Type} (m : Motors α) : m.toList = [m.get 0, m.get 1, m.get 2, m.get 3] := rfl

/-- A client's read of ENG_STATUS, of ENG_RESULT or of both gives their values. -/
theorem step_status (hu : nextTurn s = .client .status) (hr : s.resetAsserted = false) :
    step s = .next { beforeTurn s with readOut := [statusOut s] } := by
  rw [step_of_turn hu]
  simp [takeTurn, clientTurn, hr, readWordOut, statusOut]

theorem step_result (hu : nextTurn s = .client .result) (hr : s.resetAsserted = false) :
    step s = .next { beforeTurn s with readOut := [resultOut s] } := by
  rw [step_of_turn hu]
  simp [takeTurn, clientTurn, hr, readWordOut, resultOut]

/-- Settles O51: a read changes readOut and draws alone, and each target is read through its register. -/
theorem hostReadsGiveValuesWithoutSideEffect : Obligations.HostReadsGiveValuesWithoutSideEffect := by
  refine ⟨fun s r hu => ⟨fun t ht => ?_, ?_, ?_, ?_, ?_, ?_, ?_, ?_, ?_, ?_, ?_, ?_, ?_, ?_⟩,
    fun s hr => ⟨fun hu => step_status hu hr, fun hu => step_result hu hr, fun hu => ?_⟩⟩
  · rw [step_hostRead hu] at ht
    obtain ⟨d, l, rfl⟩ := hostRead_next ht
    rfl
  · rintro rfl
    exact step_reads_word hu (by simp [hostRead, statusOut, statusRead])
  · rintro rfl
    exact step_reads_word hu (by simp [hostRead, resultOut])
  · rintro rfl
    refine step_reads_word hu ?_
    cases hq : s.sched <;> simp [hostRead, hq, Sensor.code]
  · rintro rfl
    exact step_reads_word hu (by simp [hostRead])
  · rintro rfl
    exact step_reads_word hu (by simp [hostRead, cfgRead])
  · rintro q rfl
    exact step_reads_f32 hu (by simp [hostRead, Vec3.toList])
  · rintro a k rfl rfl
    exact step_reads_f32 hu (by simp [hostRead, Kf.toList])
  · rintro a rfl
    exact step_reads_f32 hu (by simp [hostRead])
  · rintro a w rfl hw hnan
    rw [hw] at hnan
    rw [step_hostRead hu, hostRead, beforeTurn_ierr, hw]
    exact ⟨_, rfl, congrArg (fun w => [w]) (f32Word_f32OfBits _ hnan)⟩
  · rintro i m rfl hm
    exact step_reads_f32 hu (by simp [hostRead, hm])
  · rintro m rfl hm
    exact step_reads_f32 hu (by simp [hostRead, hm, Motors.toList_eq])
  · rintro i m rfl hm
    exact step_reads_word hu (by simp [hostRead, hm])
  · rintro m rfl hm
    rw [step_hostRead hu, hostRead, beforeTurn_pwmWidth, hm]
    exact ⟨_, rfl, Motors.toList_eq m⟩
  · rw [step_collect hu hr, clientCollect, beforeTurn_engStatus]
    refine ⟨fun hd => ?_, fun hd => ?_⟩
    · simp [hd, statusOut, statusRead, resultOut]
    · simp [hd]

end Sys2Proof.Machine
end

section
/-! SUPPORT. The marks of a refused input and of a fault (60_exceptions.md R126, R127), and reset (70_reset_and_hazards.md
R138 to R140). -/

namespace Sys2Proof.Machine

variable {s t : State} {u : Turn}

/-! ### Reset -/

/-- A release of an asserted reset. -/
theorem step_release {busy err held : Bool} {b : Byte} (hu : nextTurn s = .sys (.releaseReset busy err b held))
    (hr : s.resetAsserted = true) : step s = .next (resetBlock busy err b held (beforeTurn s)) := by
  rw [step_of_turn hu]
  simp [takeTurn, sysTurn, releaseReset, hr]

/-- Settles O55: the release is `resetBlock`, which keeps the parameters, the agenda and the draw counter. -/
theorem resetReleaseRestoresResetState : Obligations.ResetReleaseRestoresResetState := by
  intro s busy err held b hu hr
  rw [step_release hu hr, resetBlock, beforeTurn_params, cfgOf]

/-- Settles O54: `State.reset` field by field. -/
theorem resetValues : Obligations.ResetValues :=
  ⟨rfl, rfl, rfl, rfl, rfl, rfl, rfl, rfl, rfl, rfl, rfl, rfl, rfl, fun q c => by cases q <;> cases c <;> rfl,
    fun a => by cases a <;> rfl, fun a => by cases a <;> rfl, rfl, rfl, rfl, rfl, rfl, rfl⟩

/-! ### The marks of a state -/

/-- No turn that answers a next state changes a mark, but the release of an asserted reset. -/
theorem TurnStep.marks_eq (h : TurnStep s u t) (hr : s.resetAsserted = false ∨ ¬ u.IsRelease) :
    t.refusedMark = s.refusedMark ∧ t.faultMark = s.faultMark := by
  cases h with
  | engine t _ h =>
    rcases engineTurn_next h with rfl | ⟨x, -, ⟨-, -, rfl⟩ | ⟨-, dr, -, rfl⟩ | ⟨-, -, rfl⟩⟩
    · exact ⟨rfl, rfl⟩
    · exact ⟨rfl, rfl⟩
    · exact ⟨rfl, rfl⟩
    · rcases postWait_cases x s with ⟨-, hp⟩ | ⟨-, -, hp⟩ | ⟨-, -, hp⟩ <;> rw [hp] <;> exact ⟨rfl, rfl⟩
  | sampler t _ h => cases samplerTurn_next h <;> exact ⟨rfl, rfl⟩
  | complete err b held t h =>
    obtain ⟨-, rfl⟩ := busComplete_next h
    exact ⟨rfl, rfl⟩
  | releaseReset busy err b held asserted =>
    rcases hr with hr | hr
    · rw [hr] at asserted
      cases asserted
    · exact absurd (isRelease_release busy err b held) hr
  | request w t _ h =>
    rw [submit_frame h]
    exact ⟨rfl, rfl⟩
  | _ => exact ⟨rfl, rfl⟩

theorem record_of_next (h : step s = .next t) : record s = t := by rw [record, h]

theorem record_of_refused {r : Refusal} (h : step s = .refused r) :
    record s = { beforeTurn s with refusedMark := s.refusedMark.or (some r) } := by rw [record, h]

theorem record_of_fault {f : Fault} (h : step s = .fault f) :
    record s = { beforeTurn s with faultMark := s.faultMark.or (some f) } := by rw [record, h]

/-- A mark that is set is kept by every recorded step but the release of an asserted reset. -/
theorem record_keeps_marks (hr : s.resetAsserted = false ∨ ¬ (nextTurn s).IsRelease) :
    (∀ r, s.refusedMark = some r → (record s).refusedMark = some r) ∧
      (∀ f, s.faultMark = some f → (record s).faultMark = some f) := by
  cases hs : step s with
  | next t =>
    obtain ⟨href, hfault⟩ := (step_next hs).marks_eq (by simpa using hr)
    rw [record_of_next hs, href, hfault, beforeTurn_refusedMark, beforeTurn_faultMark]
    exact ⟨fun _ => id, fun _ => id⟩
  | refused r =>
    rw [record_of_refused hs]
    exact ⟨fun r h => by simp [h], fun f h => by simp [h]⟩
  | fault f =>
    rw [record_of_fault hs]
    exact ⟨fun r h => by simp [h], fun f h => by simp [h]⟩

/-- Settles O52: what `record` does by the three outcomes, and a run's marks, which `RunSoFar.next` only adds to. -/
theorem marksAreKept : Obligations.MarksAreKept := by
  refine ⟨fun s => ⟨fun r h hnone => ?_, fun f h hnone => ?_, fun hr => ?_, fun hr busy err b held hu => ?_⟩,
    fun run => ⟨rfl, fun r h => ?_, fun f h => ?_, fun r h => ?_, fun f h => ?_, fun h => ?_⟩⟩
  · rw [record_of_refused h, hnone, Option.none_or]
  · rw [record_of_fault h, hnone, Option.none_or]
  · exact record_keeps_marks (hr.imp id not_isRelease)
  · rw [record_of_next (step_release hu hr)]
    exact ⟨rfl, rfl⟩
  · rw [RunSoFar.next, h, Option.some_or]
  · rw [RunSoFar.next, h, Option.some_or]
  · simp [RunSoFar.next, record_of_refused h]
  · simp [RunSoFar.next, record_of_fault h]
  · have hended : run.ended = false := by
      rcases h with h | h <;> simp [RunSoFar.ended, Option.isNone_eq_false_iff.mpr h]
    exact ⟨hended, by simp [RunSoFar.result, hended]⟩

end Sys2Proof.Machine
end

section
/-! SUPPORT. Runs of the ENGINE through the phases of an operation (40_i2c_engine.md R76, R77, R83), with the bus commands
they issue. -/

namespace Sys2Proof.Machine

/-- The entry of a bus log. -/
abbrev BusEntry := Option Byte × Option Byte × BitVec 4

/-! ### Runs and their bus logs -/

/-- `k` steps lead from `s` to `t` and issue the commands of `log`. -/
def RunsTo (k : Nat) (s : State) (log : List BusEntry) (t : State) : Prop :=
  ∀ m, Host.Core.run core (k + m) s = Host.Core.run core m t ∧ busLog (k + m) s = log ++ busLog m t

namespace RunsTo

variable {s t u : State} {j k : Nat} {log log' : List BusEntry}

theorem refl (s : State) : RunsTo 0 s [] s := fun m => by rw [Nat.zero_add]; exact ⟨rfl, rfl⟩

theorem trans (h : RunsTo j s log t) (h' : RunsTo k t log' u) : RunsTo (j + k) s (log ++ log') u := by
  intro m
  rw [Nat.add_assoc, (h (k + m)).1, (h (k + m)).2, (h' m).1, (h' m).2, List.append_assoc]
  exact ⟨rfl, rfl⟩

theorem run_succ_of_step (h : step s = .next t) (m : Nat) :
    Host.Core.run core (m + 1) s = Host.Core.run core m t := by
  have h' : core.step s = .next t := h
  exact (Host.Core.run.eq_2 core s m).trans (by rw [h'])

/-- A step that issues no command. -/
theorem silent (h : step s = .next t) (hc : t.bcCmd = none) : RunsTo 1 s [] t := by
  intro m
  rw [Nat.add_comm]
  exact ⟨run_succ_of_step h m, by simp [busLog, h, hc]⟩

/-- A step that issues a command. -/
theorem issue {c : BitVec 4} (h : step s = .next t) (hc : t.bcCmd = some c) :
    RunsTo 1 s [(t.bcSa, t.bcDrOut, c)] t := by
  intro m
  rw [Nat.add_comm]
  exact ⟨run_succ_of_step h m, by simp [busLog, h, hc]⟩

theorem run_eq (h : RunsTo k s log t) : Host.Core.run core k s = .next t := (h 0).1

theorem busLog_eq (h : RunsTo k s log t) : busLog k s = log := (h 0).2.trans (List.append_nil log)

end RunsTo

/-! ### The four turns of a phase -/

/-- The state in which a turn is taken that leaves `rest` on the agenda. -/
def withAgenda (rest : List Turn) (s : State) : State := { s with bcCmd := none, agenda := rest }

/-- A step whose turn the agenda gives. -/
theorem step_of_agenda {s : State} {u : Turn} {rest : List Turn} (h : s.agenda = u :: rest) :
    step s = takeTurn exec u (withAgenda rest s) := by
  rw [step_of_turn (nextTurn_cons h), beforeTurn_cons h, withAgenda]

/-- A step of the ENGINE that the agenda gives, while reset is not asserted. -/
theorem step_engine_of_agenda {s : State} {rest : List Turn} (h : s.agenda = .sys .engine :: rest)
    (hr : s.resetAsserted = false) : step s = engineTurn exec (withAgenda rest s) := by
  rw [step_of_agenda h]
  simp [takeTurn, sysTurn, withAgenda, hr]

/-- The state at the ISSUE of a phase. -/
def atIssue (x : Txn) (rest : List Turn) (s : State) : State :=
  toStage x x.k .issue (withAgenda rest s)

/-- The state once the phase's command is issued. -/
def issued (x : Txn) (dr : Option Byte) (rest : List Turn) (s : State) : State :=
  toStage x x.k .postWait (busIssue (targetByte x.dev (dueCmd x).rs) dr (dueCmd x) (withAgenda rest s))

/-- The state once BUSCTL has answered the phase's command. -/
def answered (x : Txn) (dr : Option Byte) (err : Bool) (b : Byte) (held : Bool) (rest : List Turn) (s : State) :
    State :=
  { s with
    engSeq := .active { x with stage := .postWait }
    bcSa := some (targetByte x.dev (dueCmd x).rs)
    bcDrOut := dr.or s.bcDrOut
    bcCmd := none
    bcBusy := false
    bcErr := err
    bcDrIn := drInAfter (some (dueCmd x)) err b s.bcDrIn
    bcHeld := heldAfterCompletion (some (dueCmd x)) err held
    busInFlight := none
    agenda := rest
    draws := s.draws + 1 }

variable {x : Txn} {dr : Option Byte} {s : State} {rest : List Turn}

theorem step_preWait (hx : s.engSeq = .active x) (hg : x.stage = .preWait) (hb : s.bcBusy = false)
    (hr : s.resetAsserted = false) (ha : s.agenda = .sys .engine :: rest) : step s = .next (atIssue x rest s) :=
  (step_engine_of_agenda ha hr).trans (engineTurn_preWait_of_free hx hg hb)

theorem step_issue (hx : s.engSeq = .active { x with stage := .issue }) (hd : dueByte x s = .ok dr)
    (hr : s.resetAsserted = false) (ha : s.agenda = .sys .engine :: rest) : step s = .next (issued x dr rest s) := by
  have hx : (withAgenda rest s).engSeq = .active { x with stage := .issue } := hx
  rw [step_engine_of_agenda ha hr, engineTurn_at_issue hx rfl]
  exact issueCmd_of_due hx rfl hd

theorem bcCmd_postWait (x : Txn) (s : State) : (postWait x s).bcCmd = s.bcCmd := by
  rcases postWait_cases x s with ⟨-, hp⟩ | ⟨-, -, hp⟩ | ⟨-, -, hp⟩ <;> rw [hp] <;> rfl

/-- BUSCTL's answer to the command just issued. -/
theorem step_answer {err held : Bool} {b : Byte} (r : List Turn) :
    step (issued x dr (.sys (.complete err b held) :: rest) (atIssue x r s)) =
      .next (answered x dr err b held rest s) :=
  step_of_agenda (s := issued x dr (.sys (.complete err b held) :: rest) (atIssue x r s)) rfl

/-- PRE_WAIT, ISSUE, BUSCTL's answer and the end of POST_WAIT: one command is issued. -/
theorem runsTo_phase (hx : s.engSeq = .active x) (hg : x.stage = .preWait) (hb : s.bcBusy = false)
    (hr : s.resetAsserted = false) (hd : dueByte x s = .ok dr) {err held : Bool} {b : Byte}
    (ha : s.agenda = phaseTurns err b held ++ rest) :
    RunsTo 4 s [(some (targetByte x.dev (dueCmd x).rs), dr.or s.bcDrOut, s.params.cmdEnc.code (dueCmd x))]
      (postWait { x with stage := .postWait } (answered x dr err b held rest s)) := by
  have h1 := step_preWait hx hg hb hr ha
  have h2 : step (atIssue x _ s) = .next (issued x dr (.sys (.complete err b held) :: .sys .engine :: rest) (atIssue x _ s)) :=
    step_issue rfl hd hr rfl
  have h3 := step_answer (x := x) (dr := dr) (s := s) (rest := .sys .engine :: rest) (err := err) (held := held) (b := b)
    (.sys .engine :: .sys (.complete err b held) :: .sys .engine :: rest)
  have h4 : step (answered x dr err b held (.sys .engine :: rest) s) =
      .next (postWait { x with stage := .postWait } (answered x dr err b held rest s)) :=
    (step_engine_of_agenda (s := answered x dr err b held (.sys .engine :: rest) s) rfl hr).trans
      (engineTurn_postWait_of_free (s := answered x dr err b held rest s) rfl rfl rfl)
  exact ((RunsTo.silent h1 rfl).trans (RunsTo.issue h2 rfl)).trans
    ((RunsTo.silent h3 rfl).trans (RunsTo.silent h4 (bcCmd_postWait _ _)))

/-! ### The phases of a transaction -/

/-- In phase k the ENGINE drives `out k`: it sends that byte, or it receives and BC_DR_OUT stays (40 R76, R77). -/
def DrivesAt (x : Txn) (out : Nat → Byte) (s : State) (k : Nat) : Prop :=
  dueByte { x with k := k } s = .ok (some (out k)) ∨
    1 ≤ k ∧ dueByte { x with k := k } s = .ok none ∧ out k = out (k - 1)

/-- The ENGINE is about to begin phase k of a transaction whose phases drive `out`. -/
structure InPhase (x : Txn) (out : Nat → Byte) (s : State) : Prop where
  seq : s.engSeq = .active x
  stage : x.stage = .preWait
  free : s.bcBusy = false
  released : s.resetAsserted = false
  drives : ∀ k, k ≤ x.n → DrivesAt x out s k
  driven : 1 ≤ x.k → s.bcDrOut = some (out (x.k - 1))

/-- What phase k puts into the bus log. -/
def phaseEntry (x : Txn) (e : CmdEnc) (out : Nat → Byte) (k : Nat) : BusEntry :=
  (some (targetByte x.dev (dueCmd { x with k := k }).rs), some (out k), e.code (dueCmd { x with k := k }))

/-- RXBUF after phase k has been answered with a byte (40 R77). -/
def rxStep (x : Txn) (b : Byte) (m : RxBuf) : RxBuf :=
  if x.op = .readBurst ∧ 1 ≤ x.k then memWrite m (x.k - 1) (.byte b) else m

/-- RXBUF after the phases from k on have been answered with the bytes of a list. -/
def rxAfter (x : Txn) : List Byte → RxBuf → RxBuf
  | [], m => m
  | b :: bs, m => rxAfter { x with k := x.k + 1 } bs (rxStep x b m)

/-- Every data phase of a read is a receive. -/
theorem rs_dueCmd_of_read (hk : 1 ≤ x.k) (ho : x.op = .readByte ∨ x.op = .readBurst) : (dueCmd x).rs = true := by
  rw [dueCmd_read_phase hk ho, rxCmd]
  split
  · rfl
  · split
    · rfl
    · split <;> rfl

/-- BC_DR_IN holds the answer of a data phase of a read. -/
theorem drInAfter_of_read (hk : 1 ≤ x.k) (ho : x.op = .readByte ∨ x.op = .readBurst) (b old : Byte) :
    drInAfter (some (dueCmd x)) false b old = b := by
  rw [drInAfter_some, if_pos ⟨rs_dueCmd_of_read hk ho, rfl⟩]

theorem capture_answered (x : Txn) (dr : Option Byte) (b : Byte) (held : Bool) (rest : List Turn) (s : State) :
    (capture { x with stage := .postWait } (answered x dr false b held rest s)).rxbuf = rxStep x b s.rxbuf := by
  rw [capture_rxbuf, rxStep]
  split
  · rename_i h
    obtain ⟨ho, hk⟩ : x.op = .readBurst ∧ 1 ≤ x.k := h
    exact congrArg (fun b => memWrite s.rxbuf (x.k - 1) (.byte b)) (drInAfter_of_read hk (.inr ho) b s.bcDrIn)
  · rfl

variable {out : Nat → Byte}

/-- What BC_DR_OUT holds after the issue of the phase. -/
theorem InPhase.exists_dueByte (h : InPhase x out s) (hk : x.k ≤ x.n) :
    ∃ dr, dueByte x s = .ok dr ∧ dr.or s.bcDrOut = some (out x.k) := by
  rcases h.drives x.k hk with hd | ⟨h1, hd, ho⟩
  · exact ⟨_, hd, rfl⟩
  · exact ⟨none, hd, by rw [Option.none_or, h.driven h1, ho]⟩

/-- A phase of a transaction, answered. -/
theorem InPhase.runsTo_phase (h : InPhase x out s) (hk : x.k ≤ x.n) {err held : Bool} {b : Byte}
    (ha : s.agenda = phaseTurns err b held ++ rest) :
    ∃ dr, dr.or s.bcDrOut = some (out x.k) ∧ RunsTo 4 s [phaseEntry x s.params.cmdEnc out x.k]
      (postWait { x with stage := .postWait } (answered x dr err b held rest s)) := by
  obtain ⟨dr, hd, hout⟩ := h.exists_dueByte hk
  refine ⟨dr, hout, ?_⟩
  have hrun := Machine.runsTo_phase h.seq h.stage h.free h.released hd ha
  rwa [hout] at hrun

/-- A phase before the last, answered without error: the next phase begins. -/
theorem InPhase.runsTo_next (h : InPhase x out s) (hk : x.k < x.n) {b : Byte}
    (ha : s.agenda = phaseTurns false b false ++ rest) :
    ∃ t, RunsTo 4 s [phaseEntry x s.params.cmdEnc out x.k] t ∧ InPhase { x with k := x.k + 1 } out t ∧
      t.agenda = rest ∧ t.txbuf = s.txbuf ∧ t.sv = s.sv ∧ t.params = s.params ∧ t.rxbuf = rxStep x b s.rxbuf := by
  obtain ⟨dr, hout, hrun⟩ := h.runsTo_phase hk.le ha
  have hpost : postWait { x with stage := .postWait } (answered x dr false b false rest s) = _ :=
    postWait_of_more rfl hk
  rw [hpost] at hrun
  obtain ⟨-, hstage, -, hrel, hdrives, -⟩ := h
  refine ⟨_, hrun, ⟨by rw [hstage]; rfl, hstage, rfl, hrel, hdrives, fun _ => hout⟩, rfl, rfl, rfl, rfl,
    capture_answered x dr b false rest s⟩

/-- The phases from k on, answered without error. -/
theorem InPhase.runsTo_phases (answers : List Byte) : ∀ {x : Txn} {s : State}, InPhase x out s →
    x.k + answers.length ≤ x.n → s.agenda = answers.flatMap (fun b => phaseTurns false b false) ++ rest →
    ∃ t, RunsTo (4 * answers.length) s
        ((List.range' x.k answers.length).map (phaseEntry x s.params.cmdEnc out)) t ∧
      InPhase { x with k := x.k + answers.length } out t ∧ t.agenda = rest ∧ t.txbuf = s.txbuf ∧ t.sv = s.sv ∧
      t.params = s.params ∧ t.rxbuf = rxAfter x answers s.rxbuf := by
  induction answers with
  | nil => exact fun {x s} h _ ha => ⟨s, RunsTo.refl s, h, ha, rfl, rfl, rfl, rfl⟩
  | cons b bs ih =>
    intro x s h hk ha
    rw [List.length_cons] at hk
    rw [List.flatMap_cons, List.append_assoc] at ha
    obtain ⟨t, hrun, hin, hag, htx, hsv, hp, hrx⟩ := h.runsTo_next (by omega) ha
    obtain ⟨t', hrun', hin', hag', htx', hsv', hp', hrx'⟩ := ih hin (by simp only; omega) hag
    refine ⟨t', ?_, ?_, hag', htx'.trans htx, hsv'.trans hsv, hp'.trans hp, ?_⟩
    · rw [hp] at hrun'
      have := hrun.trans hrun'
      rwa [Nat.add_comm 4, ← Nat.mul_succ] at this
    · have hn : x.k + (b :: bs).length = x.k + 1 + bs.length := by rw [List.length_cons]; omega
      rw [hn]
      exact hin'
    · rw [hrx', hrx, rxAfter]

end Sys2Proof.Machine
end

section
/-! SUPPORT. Whole operations, from the client's request to completion or abort (40_i2c_engine.md R79 to R83,
60_exceptions.md R123). -/

namespace Sys2Proof.Machine

variable {x : Txn} {out : Nat → Byte} {s : State} {rest : List Turn}

/-! ### RXBUF after the answers -/

theorem rxStep_of_not_readBurst (ho : x.op ≠ .readBurst) (b : Byte) (m : RxBuf) : rxStep x b m = m :=
  if_neg fun h => ho h.1

theorem rxAfter_of_not_readBurst (answers : List Byte) (m : RxBuf) (ho : x.op ≠ .readBurst) :
    rxAfter x answers m = m := by
  induction answers generalizing x m with
  | nil => rfl
  | cons b bs ih => rw [rxAfter, ih (x := { x with k := x.k + 1 }) _ ho, rxStep_of_not_readBurst ho]

theorem rxAfter_concat (init : List Byte) (b : Byte) (m : RxBuf) :
    rxAfter x (init ++ [b]) m = rxStep { x with k := x.k + init.length } b (rxAfter x init m) := by
  induction init generalizing x m with
  | nil => rfl
  | cons a as ih =>
    rw [List.cons_append, rxAfter, ih, List.length_cons, Nat.add_comm as.length 1, ← Nat.add_assoc]
    rfl

/-- Entries outside the answered phases are as they were. -/
theorem memRead_rxAfter_of_outside {answers : List Byte} {m : RxBuf} {j : Nat} (hk : 1 ≤ x.k)
    (hj : j < x.k - 1 ∨ x.k - 1 + answers.length ≤ j) : memRead (rxAfter x answers m) j = memRead m j := by
  induction answers generalizing x m with
  | nil => rfl
  | cons b bs ih =>
    rw [List.length_cons] at hj
    rw [rxAfter, ih (Nat.le_add_left 1 x.k) (by simp only; omega), rxStep]
    split
    · exact memRead_memWrite_of_ne _ _ (by omega)
    · rfl

/-- The i-th answer from phase k on is in RXBUF[k-1+i]. -/
theorem memRead_rxAfter_of_getElem? {answers : List Byte} {m : RxBuf} {i : Nat} {b : Byte} (ho : x.op = .readBurst)
    (hk : 1 ≤ x.k) (hb : answers[i]? = some b) : memRead (rxAfter x answers m) (x.k - 1 + i) = some (.byte b) := by
  induction answers generalizing x m i with
  | nil => simp at hb
  | cons a as ih =>
    cases i with
    | zero =>
      obtain rfl : a = b := by simpa using hb
      rw [rxAfter, memRead_rxAfter_of_outside (Nat.le_add_left 1 x.k) (.inl (by simp only; omega)), rxStep,
        if_pos ⟨ho, hk⟩, Nat.add_zero, memRead_memWrite_self]
    | succ i =>
      have := ih (x := { x with k := x.k + 1 }) (m := rxStep x a m) ho (Nat.le_add_left 1 x.k) (by simpa using hb)
      rw [rxAfter, ← this]
      congr 1
      simp only
      omega

/-! ### The last phase and the abort -/

/-- ENG_RESULT at the end of a data phase that is answered without error. -/
theorem resultOf_drInAfter (hk : 1 ≤ x.k) (b old : Byte) :
    resultOf x (drInAfter (some (dueCmd x)) false b old) = resultOf x b := by
  cases ho : x.op with
  | readByte => rw [drInAfter_of_read hk (.inl ho)]
  | readBurst => rw [drInAfter_of_read hk (.inr ho)]
  | writeByte => rw [resultOf_write _ (.inl ho), resultOf_write _ (.inl ho)]
  | writeBurst => rw [resultOf_write _ (.inr ho), resultOf_write _ (.inr ho)]

/-- The last phase, answered without error: completion (40 R78). -/
theorem InPhase.runsTo_completed (h : InPhase x out s) (h1 : 1 ≤ x.n) (hk : x.k = x.n) {b : Byte}
    (ha : s.agenda = phaseTurns false b false ++ rest) :
    ∃ t, RunsTo 4 s [phaseEntry x s.params.cmdEnc out x.k] t ∧ t.engResult = resultOf x b ∧ t.engStatus = 0x02#8 ∧
      t.engSeq = .idle ∧ t.agenda = rest ∧ t.txbuf = s.txbuf ∧ t.rxbuf = rxStep x b s.rxbuf := by
  obtain ⟨dr, -, hrun⟩ := h.runsTo_phase hk.le ha
  have hpost : postWait { x with stage := .postWait } (answered x dr false b false rest s) = _ :=
    postWait_of_last rfl hk
  rw [hpost] at hrun
  exact ⟨_, hrun, resultOf_drInAfter (hk ▸ h1) b s.bcDrIn, statusWord_completed, rfl, rfl, rfl,
    capture_answered x dr b false rest s⟩

/-- A phase answered with an error: the abort (60 R123). -/
theorem InPhase.runsTo_failed (h : InPhase x out s) (hk : x.k ≤ x.n) {b : Byte} {held : Bool}
    (ha : s.agenda = phaseTurns true b held ++ rest) :
    ∃ t, RunsTo 4 s [phaseEntry x s.params.cmdEnc out x.k] t ∧ t.engResult = 0x00#8 ∧ t.engStatus = 0x06#8 ∧
      t.engSeq = .idle ∧ t.agenda = rest ∧ t.sv = s.sv ∧
      t.rxbuf = if x.op = .readBurst then rxForget x.n s.rxbuf else s.rxbuf := by
  obtain ⟨dr, -, hrun⟩ := h.runsTo_phase hk ha
  have hpost : postWait { x with stage := .postWait } (answered x dr true b held rest s) = _ := postWait_of_err rfl
  rw [hpost] at hrun
  exact ⟨_, hrun, rfl, statusWord_failed, rfl, rfl, rfl, rfl⟩

/-! ### From the request on -/

variable {op : EngOp} {dev : BitVec 7} {reg : Byte} {n : Nat} {w : Word}

/-- The transaction an accept begins. -/
abbrev firstPhase (op : EngOp) (dev : BitVec 7) (reg : Byte) (n : Nat) : Txn := ⟨op, dev, reg, n, 0, .preWait⟩

/-- A client's request that the idle ENGINE accepts: phase 0 is about to begin. -/
theorem runsTo_request {i : Instr} (hi : s.engSeq = .idle) (hr : s.resetAsserted = false) (hb : s.bcBusy = false)
    (ha : s.agenda = .client (.request w) :: rest) (hd : decode (.req w) = .ok i)
    (he : ∀ s : State, exec i s = accept op dev reg n w s) (h1 : 1 ≤ n) (h2 : n ≤ s.params.nmax)
    (hw : op = .writeBurst → allWritten s.txbuf n = true)
    (hdr : ∀ t : State, t.engReq = some w → t.txbuf = s.txbuf → ∀ k, k ≤ n → DrivesAt (firstPhase op dev reg n) out t k) :
    ∃ t, RunsTo 1 s [] t ∧ InPhase (firstPhase op dev reg n) out t ∧ t.agenda = rest ∧ t.txbuf = s.txbuf ∧
      t.rxbuf = s.rxbuf ∧ t.sv = s.sv ∧ t.params = s.params := by
  have hstep : step s = .next (beginTxn op dev reg n w (withAgenda rest s)) := by
    calc step s = takeTurn exec (.client (.request w)) (withAgenda rest s) := step_of_agenda ha
      _ = submit exec w (withAgenda rest s) := by simp [takeTurn, clientTurn, withAgenda, hr]
      _ = exec i (withAgenda rest s) := submit_of_idle (s := withAgenda rest s) hi hd
      _ = accept op dev reg n w (withAgenda rest s) := he _
      _ = _ := accept_of_ready dev reg w (s := withAgenda rest s) hi h1 h2 hw
  exact ⟨_, RunsTo.silent hstep rfl,
    ⟨rfl, rfl, hb, hr, hdr _ rfl rfl, fun h => absurd h (Nat.not_succ_le_zero 0)⟩, rfl, rfl, rfl, rfl, rfl⟩

/-- All phases of an operation, answered without error: n + 1 commands, and completion. -/
theorem InPhase.runsTo_end {answers : List Byte} (h : InPhase (firstPhase op dev reg n) out s) (h1 : 1 ≤ n)
    (hn : answers.length = n + 1) (ha : s.agenda = answers.flatMap (fun b => phaseTurns false b false) ++ rest) :
    ∃ t, RunsTo (4 * n + 4) s ((List.range (n + 1)).map (phaseEntry (firstPhase op dev reg n) s.params.cmdEnc out)) t ∧
      (∃ b, answers.getLast? = some b ∧ t.engResult = resultOf (firstPhase op dev reg n) b) ∧ t.engStatus = 0x02#8 ∧
      t.engSeq = .idle ∧ t.agenda = rest ∧ t.txbuf = s.txbuf ∧
      t.rxbuf = rxAfter (firstPhase op dev reg n) answers s.rxbuf := by
  obtain rfl | ⟨init, b, rfl⟩ := List.eq_nil_or_concat' answers
  · simp at hn
  have hlen : init.length = n := by simpa using hn
  rw [List.flatMap_append, List.append_assoc, List.flatMap_singleton] at ha
  obtain ⟨t, hrun, hin, hag, htx, -, hp, hrx⟩ := h.runsTo_phases init (by simp [hlen]) ha
  obtain ⟨t', hrun', hres, hst, hidle, hag', htx', hrx'⟩ := hin.runsTo_completed h1 (by simp [hlen]) hag
  refine ⟨t', ?_, ⟨b, by simp, hres⟩, hst, hidle, hag', htx'.trans htx, ?_⟩
  · have := hrun.trans hrun'
    rw [hp, hlen, ← List.range_eq_range', Nat.zero_add, ← List.map_singleton] at this
    rw [List.range_succ, List.map_append]
    exact this
  · rw [hrx', hrx, rxAfter_concat]

/-- An operation from its request to its completion, answered without error. -/
theorem runsTo_operation {i : Instr} {answers : List Byte} (hi : s.engSeq = .idle) (hr : s.resetAsserted = false)
    (hb : s.bcBusy = false) (ha : s.agenda = okTurns w answers ++ rest) (hn : answers.length = n + 1)
    (hd : decode (.req w) = .ok i) (he : ∀ s : State, exec i s = accept op dev reg n w s) (h1 : 1 ≤ n)
    (h2 : n ≤ s.params.nmax) (hw : op = .writeBurst → allWritten s.txbuf n = true)
    (hdr : ∀ t : State, t.engReq = some w → t.txbuf = s.txbuf → ∀ k, k ≤ n → DrivesAt (firstPhase op dev reg n) out t k) :
    ∃ t, RunsTo (5 + 4 * n) s ((List.range (n + 1)).map (phaseEntry (firstPhase op dev reg n) s.params.cmdEnc out)) t ∧
      (∃ b, answers.getLast? = some b ∧ t.engResult = resultOf (firstPhase op dev reg n) b) ∧ t.engStatus = 0x02#8 ∧
      t.engSeq = .idle ∧ t.agenda = rest ∧ t.txbuf = s.txbuf ∧
      t.rxbuf = rxAfter (firstPhase op dev reg n) answers s.rxbuf := by
  obtain ⟨t, hrun, hin, hag, htx, hrx, -, hp⟩ := runsTo_request hi hr hb ha hd he h1 h2 hw hdr
  obtain ⟨t', hrun', hres, hst, hidle, hag', htx', hrx'⟩ := hin.runsTo_end h1 hn hag
  refine ⟨t', ?_, hres, hst, hidle, hag', htx'.trans htx, by rw [hrx', hrx]⟩
  have := hrun.trans hrun'
  rwa [hp, List.nil_append, Nat.add_comm (4 * n), ← Nat.add_assoc] at this

/-! ### What the operations drive -/

/-- A read drives the register address and leaves it on BC_DR_OUT. -/
theorem drivesAt_read (ho : op = .readByte ∨ op = .readBurst) (k : Nat) :
    DrivesAt (firstPhase op dev reg n) (fun _ => reg) s k := by
  rcases Nat.eq_zero_or_pos k with rfl | hk
  · exact .inl (dueByte_register rfl)
  · exact .inr ⟨hk, dueByte_read hk ho, rfl⟩

/-- A read's bus log: the register address with start, then the receives. -/
theorem phaseEntries_read (ho : op = .readByte ∨ op = .readBurst) (e : CmdEnc) :
    (List.range (n + 1)).map (phaseEntry (firstPhase op dev reg n) e (fun _ => reg)) =
      (some (dev ++ 0#1), some reg, e.sendStart) ::
        (List.range n).map (fun j => (some (dev ++ 1#1), some reg, e.code (rxCmd j n))) := by
  rw [List.range_succ_eq_map, List.map_cons, List.map_map]
  congr 1
  refine List.map_congr_left fun j _ => ?_
  have hc : dueCmd { firstPhase op dev reg n with k := j + 1 } = rxCmd j n := dueCmd_read_phase (Nat.le_add_left 1 j) ho
  have hrs : (dueCmd { firstPhase op dev reg n with k := j + 1 }).rs = true :=
    rs_dueCmd_of_read (Nat.le_add_left 1 j) ho
  rw [hc] at hrs
  simp only [Function.comp, phaseEntry, hc, hrs]
  rfl

/-- The byte a write drives in phase k: the register address, then its data. -/
def writeOut (reg : Byte) (data : List Byte) : Nat → Byte
  | 0 => reg
  | k + 1 => data.getD k 0

/-- WRITE_BYTE drives its data byte from ENG_REQ. -/
theorem drivesAt_writeByte {data : Byte} (hreq : s.engReq = some (reqWord data reg dev 0b01#2)) {k : Nat} (hk : k ≤ 1) :
    DrivesAt (firstPhase .writeByte dev reg 1) (writeOut reg [data]) s k := by
  obtain rfl | rfl : k = 0 ∨ k = 1 := by omega
  · exact .inl (dueByte_register rfl)
  · refine .inl ((dueByte_writeByte (le_refl 1) rfl hreq).trans ?_)
    rw [reqArg_reqWord]
    rfl

/-- WRITE_BURST drives TXBUF in index order. -/
theorem drivesAt_writeBurst {data : List Byte} (hread : ∀ j, j < n → memRead s.txbuf j = some (data.getD j 0)) {k : Nat}
    (hk : k ≤ n) : DrivesAt (firstPhase .writeBurst dev reg n) (writeOut reg data) s k := by
  cases k with
  | zero => exact .inl (dueByte_register rfl)
  | succ j => exact .inl (dueByte_writeBurst (Nat.le_add_left 1 j) rfl (hread j hk))

/-- A count within NMAX fits the byte of a request word. -/
theorem toNat_count (h : n ≤ s.params.nmax) : (BitVec.ofNat 8 n).toNat = n := by
  rw [BitVec.toNat_ofNat]
  refine Nat.mod_eq_of_lt ?_
  unfold Params.nmax at h
  omega

/-- A write's bus log: the register address with start, the data with CONT and the last with FINISH. -/
theorem phaseEntries_write (ho : op = .writeByte ∨ op = .writeBurst) (e : CmdEnc) (init : List Byte) (last : Byte)
    (hn : n = init.length + 1) :
    (List.range (n + 1)).map (phaseEntry (firstPhase op dev reg n) e (writeOut reg (init ++ [last]))) =
      (some (dev ++ 0#1), some reg, e.sendStart) ::
        (init.map (fun b => (some (dev ++ 0#1), some b, e.sendCont)) ++
          [(some (dev ++ 0#1), some last, e.sendFinish)]) := by
  subst hn
  have hc (j : Nat) : dueCmd { firstPhase op dev reg (init.length + 1) with k := j + 1 } = txCmd j (init.length + 1) :=
    dueCmd_write_phase (Nat.le_add_left 1 j) ho
  rw [List.range_succ_eq_map, List.map_cons, List.map_map, List.range_succ, List.map_append]
  congr 2
  · refine List.ext_getElem (by simp) fun j hj _ => ?_
    have hj : j < init.length := by simpa using hj
    have hcont : txCmd j (init.length + 1) = .sendCont := txCmd_before_last (by omega)
    simp [phaseEntry, hc, hcont, writeOut, hj, List.getElem?_append_left, BusCmd.rs, CmdEnc.code, targetByte]
  · have hfin : txCmd init.length (init.length + 1) = .sendFinish := txCmd_last (init.length + 1)
    simp [phaseEntry, hc, hfin, writeOut, BusCmd.rs, CmdEnc.code, targetByte]

/-! ### The four operations -/

/-- Settles O19: the two operations with one data byte. -/
theorem byteOperationsComplete : Obligations.ByteOperationsComplete := by
  intro s dev reg data b0 b rest hi hr hb
  have hone : 1 ≤ s.params.nmax := by unfold Params.nmax; omega
  refine ⟨fun ha => ?_, fun ha => ?_⟩
  · obtain ⟨t, hrun, ⟨b', hlast, hres⟩, hst, hidle, hag, -, hrx⟩ :=
      runsTo_operation (op := .readByte) (dev := dev) (reg := reg) (n := 1) hi hr hb ha rfl
        (decodeWith_encodeWith legal_standard (.rdb dev reg)) (fun _ => rfl) (le_refl 1) hone (by simp)
        (fun _ _ _ k _ => drivesAt_read (.inl rfl) k)
    obtain rfl : b = b' := by simpa using hlast
    rw [rxAfter_of_not_readBurst _ _ (by simp)] at hrx
    exact ⟨⟨t, hrun.run_eq, hres, hst, hidle, hrx, hag⟩, hrun.busLog_eq.trans (phaseEntries_read (.inl rfl) _)⟩
  · obtain ⟨t, hrun, ⟨b', -, hres⟩, hst, hidle, hag, -, hrx⟩ :=
      runsTo_operation (op := .writeByte) (dev := dev) (reg := reg) (n := 1) hi hr hb ha rfl
        (decodeWith_encodeWith legal_standard (.wrb dev reg data)) (fun _ => rfl) (le_refl 1) hone (by simp)
        (fun _ hreq _ k hk => drivesAt_writeByte hreq hk)
    rw [rxAfter_of_not_readBurst _ _ (by simp)] at hrx
    exact ⟨⟨t, hrun.run_eq, hres, hst, hidle, hrx, hag⟩,
      hrun.busLog_eq.trans (phaseEntries_write (.inl rfl) _ [] data rfl)⟩

/-- Settles O20: the operation READ_BURST, whose data phases capture the bytes one after the other. -/
theorem readBurstDeliversBytesInOrder : Obligations.ReadBurstDeliversBytesInOrder := by
  intro s dev reg b0 bytes rest hi hr hb h1 h2 ha
  have hcount : (BitVec.ofNat 8 bytes.length).toNat = bytes.length := toNat_count h2
  obtain ⟨t, hrun, ⟨b', -, hres⟩, hst, hidle, hag, htx, hrx⟩ :=
    runsTo_operation (op := .readBurst) (dev := dev) (reg := reg) (n := bytes.length) hi hr hb ha rfl
      (decodeWith_encodeWith legal_standard (.rdn dev reg (BitVec.ofNat 8 bytes.length)))
      (fun _ => by rw [exec, execRdn, hcount]) h1 h2 (by simp) (fun _ _ _ k _ => drivesAt_read (.inr rfl) k)
  have hrx : t.rxbuf = rxAfter { firstPhase .readBurst dev reg bytes.length with k := 1 } bytes s.rxbuf := hrx
  refine ⟨⟨t, hrun.run_eq, hres, hst, hidle, hag, htx, fun j b hj => ?_, fun j hj => ?_⟩,
    hrun.busLog_eq.trans (phaseEntries_read (.inr rfl) _)⟩
  · have := memRead_rxAfter_of_getElem? (x := { firstPhase .readBurst dev reg bytes.length with k := 1 })
      (m := s.rxbuf) rfl (le_refl 1) hj
    rw [hrx, ← this]
    congr 1
    exact (Nat.zero_add j).symm
  · rw [hrx]
    exact memRead_rxAfter_of_outside (le_refl 1) (.inr ((Nat.zero_add _).trans_le hj))

/-- Settles O22: the operation WRITE_BURST, whose data phases drive TXBUF in index order. -/
theorem writeBurstSendsBytesInOrder : Obligations.WriteBurstSendsBytesInOrder := by
  intro s dev reg last init answers rest hi hr hb h2 hans hbytes ha
  have hcount : (BitVec.ofNat 8 (init.length + 1)).toNat = init.length + 1 := toNat_count h2
  have hlen : (init ++ [last]).length = init.length + 1 := by simp
  have hread (j : Nat) (hj : j < init.length + 1) : memRead s.txbuf j = some ((init ++ [last]).getD j 0) := by
    refine hbytes j _ ?_
    rw [List.getD_eq_getElem _ _ (by omega), List.getElem?_eq_getElem (by omega)]
  obtain ⟨t, hrun, ⟨b', -, hres⟩, hst, hidle, hag, htx, -⟩ :=
    runsTo_operation (op := .writeBurst) (dev := dev) (reg := reg) (n := init.length + 1) hi hr hb ha hans
      (decodeWith_encodeWith legal_standard (.wrn dev reg (BitVec.ofNat 8 (init.length + 1))))
      (fun _ => by rw [exec, execWrn, hcount]) (Nat.le_add_left 1 _) h2
      (fun _ => (allWritten_iff _ _).mpr fun j hj => ⟨_, hread j hj⟩)
      (fun t _ htx k hk => drivesAt_writeBurst (by rwa [htx]) hk)
  have hk : 5 + 4 * (init.length + 1) = 9 + 4 * init.length := by omega
  rw [hk] at hrun
  exact ⟨⟨t, hrun.run_eq, hres, hst, hidle, hag, htx⟩,
    hrun.busLog_eq.trans (phaseEntries_write (.inr rfl) _ init last rfl)⟩

/-- Settles O21: the phases before the k-th, answered, and the k-th, which fails. -/
theorem abortedReadBurstIssuesNoMore : Obligations.AbortedReadBurstIssuesNoMore := by
  intro s dev reg n b held answers rest hi hr hb h1 h2 hk ha
  have ha : s.agenda = .client (.request (reqWord n reg dev 0b10#2)) ::
      (answers.flatMap (fun b => phaseTurns false b false) ++ (phaseTurns true b held ++ rest)) := ha
  obtain ⟨t, hrun, hin, hag, -, -, hsv, -⟩ :=
    runsTo_request (op := .readBurst) (dev := dev) (reg := reg) (n := n.toNat) hi hr hb ha
      (decodeWith_encodeWith legal_standard (.rdn dev reg n)) (fun _ => rfl) h1 h2 (by simp)
      (fun _ _ _ k _ => drivesAt_read (.inr rfl) k)
  obtain ⟨t', hrun', hin', hag', -, hsv', -, -⟩ := hin.runsTo_phases answers (by simpa using hk) hag
  obtain ⟨u, hrun'', hres, hst, hidle, hag'', hsv'', hrx⟩ := hin'.runsTo_failed (by simpa using hk) hag'
  have hwhole := (hrun.trans hrun').trans hrun''
  have hsteps : 1 + 4 * answers.length + 4 = 5 + 4 * answers.length := by omega
  rw [hsteps] at hwhole
  refine ⟨⟨u, hwhole.run_eq, hres, hst, hidle, hag'', hsv''.trans (hsv'.trans hsv), fun j hj => ?_⟩, ?_⟩
  · rw [hrx, if_pos rfl, memRead_rxForget, if_pos hj]
  · rw [hwhole.busLog_eq]
    simp

end Sys2Proof.Machine
end

section
/-! SUPPORT. What an operation puts on the bus (40_i2c_engine.md R86, R87): the phases' traces joined. -/

namespace Sys2Proof.Machine

variable {dev : BitVec 7} {reg : Byte} {n : Nat}

theorem phasesTrace_cons (t : Txn) (held : Bool) (draw : Nat) (b : Byte) (bs : List Byte) :
    phasesTrace t held draw (b :: bs) = busAction (dueCmd t) held draw (targetByte t.dev (dueCmd t).rs) b b ++
      phasesTrace { t with k := t.k + 1 } (dueCmd t).heldAfter (draw + 1) bs := rfl

/-- The data bytes of a READ_BURST from the second on: the bus is held, and the last byte lets it go. -/
theorem phasesTrace_read (init : List Byte) (d : Byte) (g : Stage) {k : Nat} (held : Bool) (draw : Nat) (hk : 2 ≤ k)
    (hn : n = k + init.length) :
    phasesTrace ⟨.readBurst, dev, reg, n, k, g⟩ held draw (init ++ [d]) =
      init.flatMap (fun b => [.received b, .masterAck]) ++ [.received d, .masterNack, .stop] := by
  induction init generalizing k held draw with
  | nil =>
    have hc : dueCmd ⟨.readBurst, dev, reg, n, k, g⟩ = .receiveFinish := by
      rw [dueCmd_read_phase (by simp only; omega) (.inr rfl)]
      obtain rfl : k = n := hn.symm
      exact rxCmd_last hk
    simp [phasesTrace, hc, busAction]
  | cons b bs ih =>
    rw [List.length_cons] at hn
    have hc : dueCmd ⟨.readBurst, dev, reg, n, k, g⟩ = .receiveCont := by
      have hcont : rxCmd (k - 1) n = .receiveCont := rxCmd_interior (by omega) (by omega)
      exact (dueCmd_read_phase (by simp only; omega) (.inr rfl)).trans hcont
    rw [List.cons_append, phasesTrace_cons, ih (k := k + 1) _ _ (by omega) (by omega), hc]
    simp [busAction]

/-- The data bytes of a write. -/
theorem phasesTrace_write {op : EngOp} (ho : op = .writeByte ∨ op = .writeBurst) (init : List Byte) (d : Byte)
    (g : Stage) {k : Nat} (held : Bool) (draw : Nat) (hk : 1 ≤ k) (hn : n = k + init.length) :
    phasesTrace ⟨op, dev, reg, n, k, g⟩ held draw (init ++ [d]) =
      init.flatMap (fun b => [.sent b, .slaveAck]) ++ [.sent d, .slaveAck, .stop] := by
  induction init generalizing k held draw with
  | nil =>
    have hc : dueCmd ⟨op, dev, reg, n, k, g⟩ = .sendFinish := dueCmd_write_last hk hn.symm ho
    simp [phasesTrace, hc, busAction]
  | cons b bs ih =>
    rw [List.length_cons] at hn
    have hc : dueCmd ⟨op, dev, reg, n, k, g⟩ = .sendCont := by
      have hcont : txCmd (k - 1) n = .sendCont := txCmd_before_last (by omega)
      exact (dueCmd_write_phase hk ho).trans hcont
    rw [List.cons_append, phasesTrace_cons, ih (k := k + 1) _ _ (by omega) (by omega), hc]
    simp [busAction]

/-- Phase 0 on a bus that is not held: START, the target byte for a send, and the register address; the bus is then
held. -/
theorem opTrace_eq (op : EngOp) (draw : Nat) (data : List Byte) :
    opTrace op dev reg false draw data = [.start, .addr (dev ++ 0#1), .slaveAck, .sent reg, .slaveAck] ++
      phasesTrace ⟨op, dev, reg, data.length, 1, .issue⟩ true (draw + 1) data := rfl

/-- Settles O23: phase 0, then the data phases; the first receive of a read is on the held bus. -/
theorem busTraceOfOperations : Obligations.BusTraceOfOperations := by
  intro dev reg d init draw w r
  refine ⟨rfl, fun hlen => ?_, ?_, ?_⟩
  · cases init with
    | nil => simp at hlen
    | cons b bs =>
      have hc : dueCmd ⟨.readBurst, dev, reg, (b :: (bs ++ [d])).length, 1, .issue⟩ = .receiveStart := by
        rw [dueCmd_read_phase (le_refl 1) (.inr rfl)]
        exact rxCmd_first (by simp)
      rw [opTrace_eq, List.cons_append (a := b), phasesTrace_cons, hc,
        phasesTrace_read bs d _ _ _ (le_refl 2) (by simp; omega)]
      simp [busAction, startSym, BusCmd.rs, targetByte, w, r]
  · rfl
  · rw [opTrace_eq, phasesTrace_write (.inr rfl) init d _ _ _ (le_refl 1) (by simp; omega)]
    simp [w]

end Sys2Proof.Machine
end
